-- ==== Sys2Proof/Word.lean ====
section
/-! DEFINITION. The words of the block: bytes of FMEM, PMEM and the header windows, 16-bit frame coordinates, 32-bit register words
and 64-bit counters (00_scope.md R8, R10; 10_state.md R61). -/

namespace Sys2Proof

/-- u8: a sample, a payload byte, a header byte. -/
abbrev Byte := BitVec 8

/-- u16: FRAME_W, FRAME_H and the two halves of ITER_POS. -/
abbrev Half := BitVec 16

/-- u32 or s32: a register word, a raw coefficient, an address of FMEM or PMEM. -/
abbrev Word := BitVec 32

/-- u64: IDX, BITS_DONE, BITS_REQ, ERR_EXP, ERR_OBS. -/
abbrev DWord := BitVec 64

end Sys2Proof
end

