-- ==== Sys2Proof/Syntax.lean ====
section
/-! DEFINITION. The commands: one constructor per row of spec/opcode_table.json (30_encoding.md R104). The only operand any command
word carries is the bit B of QENC (R102, R108). -/

namespace Sys2Proof

inductive Instr where
  | nop
  | qenc (b : Bool)
  | qdec
  | iterReset
  | iterNext
  | serBit
  | parse
  | embStart
  | embFrame
  | embEnd
  | extStart
  | extFrame
  | extEnd
  | abort
  deriving DecidableEq, Repr

end Sys2Proof
end

