-- ==== Sys2Proof/Machine/Event.lean ====
section
/-! DEFINITION. What can happen next at the block: a transaction of the Host, a Reset, or a turn of the Core (45_system.md R276;
70_reset_and_hazards.md R340). A state holds the list of the events to come, which fixes the interleaving (log 1). -/

namespace Sys2Proof.Machine

inductive Event where
  /-- the interleaving gives the Core its turn (45_system.md R275, R276) -/
  | coreTurn
  /-- the Host's polling loop on STATUS.BUSY, the pseudo-instruction `wait` (30_encoding.md R121; log 11) -/
  | wait
  /-- the reset input (70_reset_and_hazards.md R340) -/
  | reset
  /-- a register write of `v` at byte offset `off`, `width` bits wide (45_system.md R272; 10_state.md R23) -/
  | regWrite (off : BitVec 12) (width : Nat) (v : Word)
  /-- a register read at byte offset `off`, `width` bits wide (45_system.md R273; 10_state.md R23) -/
  | regRead (off : BitVec 12) (width : Nat)
  /-- the Host writes one byte of FMEM (00_scope.md R6) -/
  | fmemWrite (a : Word) (v : Byte)
  /-- the Host reads one byte of FMEM -/
  | fmemRead (a : Word)
  /-- the Host writes one byte of PMEM -/
  | pmemWrite (a : Word) (v : Byte)
  /-- the Host reads one byte of PMEM -/
  | pmemRead (a : Word)
  deriving DecidableEq, Repr

/-- A register access the interface takes: 32 bits wide at a multiple of 4 (10_state.md R23; 20_memory.md R76). -/
def registerAccess (off : BitVec 12) (width : Nat) : Bool :=
  width == 32 && off.toNat % 4 == 0

end Sys2Proof.Machine
end

