-- ==== Sys2Proof/WellFormed.lean ====
section
/-! DEFINITION. Well-formedness. A command's one operand is a bit, so every term of `Instr` is a command the block has
(30_encoding.md R102, R108); the terms that can be ill formed are the Host's register accesses (10_state.md R23). -/

namespace Sys2Proof

/-- Every command term is well formed: the operand's type is its range (30_encoding.md R102). -/
def Instr.wellFormed : Instr → Bool
  | .nop => true
  | .qenc _ => true
  | .qdec => true
  | .iterReset => true
  | .iterNext => true
  | .serBit => true
  | .parse => true
  | .embStart => true
  | .embFrame => true
  | .embEnd => true
  | .extStart => true
  | .extFrame => true
  | .extEnd => true
  | .abort => true

/-- The events the interface takes: a register access is 32 bits wide and word-aligned (10_state.md R23). -/
def Machine.Event.wellFormed : Machine.Event → Bool
  | .coreTurn => true
  | .wait => true
  | .reset => true
  | .regWrite off width _ => Machine.registerAccess off width
  | .regRead off width => Machine.registerAccess off width
  | .fmemWrite _ _ => true
  | .fmemRead _ => true
  | .pmemWrite _ _ => true
  | .pmemRead _ => true

end Sys2Proof
end

