-- ==== Sys2Proof/Decode.lean ====
section
/-! DEFINITION. Decoding and encoding of the one command format, CMD32 (30_encoding.md R100..R107). Decoding is total on 32-bit words and
names why it rejects one; the encoder is written from the opcode map of R104. -/

namespace Sys2Proof

/-- Why a command word is illegal (30_encoding.md R105). -/
inductive Illegal where
  /-- w[31:9] is not 0 -/
  | reservedBits
  /-- w[7:0] is no OP of the map -/
  | unknownOp
  /-- w[8] = 1 and the OP is not QENC's -/
  | strayB
  deriving DecidableEq, Repr

/-- What a command word is. -/
inductive Decoded where
  | instr (i : Instr)
  | illegal (why : Illegal)
  deriving DecidableEq, Repr

/-- OP = w[7:0] (30_encoding.md R100). -/
def opField (w : Word) : Nat := (w.extractLsb' 0 8).toNat

/-- B = w[8]. -/
def bField (w : Word) : Bool := w.getLsbD 8

/-- RSVD = w[31:9]. -/
def rsvdField (w : Word) : Nat := (w.extractLsb' 9 23).toNat

/-- The opcode map (30_encoding.md R104), with the bit operand that only QENC uses. -/
def instrOfOp (op : Nat) (b : Bool) : Option Instr :=
  match op with
  | 0x00 => some .nop
  | 0x01 => some (.qenc b)
  | 0x02 => some .qdec
  | 0x08 => some .iterReset
  | 0x09 => some .iterNext
  | 0x10 => some .serBit
  | 0x11 => some .parse
  | 0x20 => some .embStart
  | 0x21 => some .embFrame
  | 0x22 => some .embEnd
  | 0x30 => some .extStart
  | 0x31 => some .extFrame
  | 0x32 => some .extEnd
  | 0x3F => some .abort
  | _ => none

/-- The command a word is, or why it is illegal (30_encoding.md R101, R103, R105). -/
def decode (w : Word) : Decoded :=
  if rsvdField w ≠ 0 then .illegal .reservedBits
  else
    match instrOfOp (opField w) (bField w) with
    | none => .illegal .unknownOp
    | some i => if bField w = true ∧ opField w ≠ 0x01 then .illegal .strayB else .instr i

/-- The words of a command (30_encoding.md R104; B of QENC at bit 8, R102). -/
def encode : Instr → Word
  | .nop => 0x00000000
  | .qenc b => if b then 0x00000101 else 0x00000001
  | .qdec => 0x00000002
  | .iterReset => 0x00000008
  | .iterNext => 0x00000009
  | .serBit => 0x00000010
  | .parse => 0x00000011
  | .embStart => 0x00000020
  | .embFrame => 0x00000021
  | .embEnd => 0x00000022
  | .extStart => 0x00000030
  | .extFrame => 0x00000031
  | .extEnd => 0x00000032
  | .abort => 0x0000003F

/-- The host's reading of a table word: a command is one 32-bit word (R107), whose bits above `nbits` are 0. -/
def decodeTableWord (nbits w : Nat) : Option Instr :=
  match decode (BitVec.ofNat 32 (w % 2 ^ nbits)) with
  | .instr i => some i
  | .illegal _ => none

end Sys2Proof
end

