-- ==== Sys2Proof/Config.lean ====
section
/-! DEFINITION. What an implementation fixes, and the free values (00_scope.md R7; 10_state.md R20).

The parameters ML, F, ROUND_TIE and MARKER are plain data, `Build`: a state carries the build it belongs to, no step writes it, and so
every statement over states is one over every build (log 3). What the spec marks OPEN and what it calls a draw has no body here: nothing
in Lean can evaluate it (log 4, 5, 6, 7). -/

namespace Sys2Proof

/-- ROUND_TIE, the tie rule of Round (00_scope.md R7; 41_qim.md R161). -/
inductive RoundTie where
  | halfEven
  | halfAway
  | halfUp
  deriving DecidableEq, Repr, Inhabited

/-- The build parameters of 00_scope.md R7 that are data. `mlPred` is ML - 1, so that ML ranges over its legal values 1..60;
`frac` is F, 0..28; `marker` holds MARKER[k] at index k, of which the block uses k < ML. -/
structure Build where
  mlPred   : Fin 60
  frac     : Fin 29
  roundTie : RoundTie
  marker   : Vector Byte 60
  deriving DecidableEq, Repr

/-- MARKER_LEN in bytes (00_scope.md R7). -/
def Build.ml (b : Build) : Nat := b.mlPred.val + 1

/-- 2^F, the raw value of 1.0 (00_scope.md R12). -/
def Build.one (b : Build) : Nat := 2 ^ b.frac.val

/-- An 8x8 block of samples: block row, then column (10_state.md R20). -/
abbrev Block := Fin 8 → Fin 8 → Byte

/-- An 8x8 grid of raw s32 values: row, then column (10_state.md R20). -/
abbrev Grid := Fin 8 → Fin 8 → Word

/-- The transform pair XF_FWD, XF_INV: total functions (10_state.md R20). -/
structure Transform where
  fwd : Block → Grid
  inv : Grid → Grid

/-- ROUND_TIE of the machine that `State.reset` describes: OPEN (log 4). -/
opaque Config.roundTie : RoundTie

/-- MARKER of the machine that `State.reset` describes: OPEN (log 4). -/
opaque Config.marker : Vector Byte 60

/-- XF_FWD: OPEN (log 5). -/
opaque Config.xfFwd : Block → Grid

/-- XF_INV: OPEN (log 5). -/
opaque Config.xfInv : Grid → Grid

/-- The byte FMEM holds at power-on, by address: a draw (70_reset_and_hazards.md R343; log 6). -/
opaque Config.fmemInit : Nat → Byte

/-- The byte PMEM holds at power-on, by address: a draw (70_reset_and_hazards.md R343; log 6). -/
opaque Config.pmemInit : Nat → Byte

/-- The draws of a reset in flight, by the state's counter (70_reset_and_hazards.md R342; log 7). -/
opaque Config.draw : Nat → Byte

/-- The build of `State.reset`: ML and F at the defaults of 00_scope.md R7, the OPEN parameters free. -/
def Config.build : Build :=
  { mlPred := 10, frac := 16, roundTie := Config.roundTie, marker := Config.marker }

/-- The machine's transform pair. -/
def Config.transform : Transform := { fwd := Config.xfFwd, inv := Config.xfInv }

end Sys2Proof
end

