-- ==== Sys2Proof/Machine/State.lean ====
section
/-! DEFINITION. The machine's state as plain data: the record of 10_state.md R61 with FMEM and PMEM, the constants of the build, and the
model's own three fields (the coming events, the Host's read data, the counter of draws). INVENTORY.md lists each with its rule. -/

namespace Sys2Proof.Machine

/-- STATUS.MODE (10_state.md R27). The value 3 is never produced (93_implementation_defined.md U19), so the type lacks it. -/
inductive Mode where
  | none
  | embed
  | extract
  deriving DecidableEq, Repr

/-- STATUS.RUN (10_state.md R28). -/
inductive Run where
  | idle
  | active
  | done
  | failed
  deriving DecidableEq, Repr

/-- The outcome codes of 60_exceptions.md R301, 0 to 8 in this order. 9..15 are never produced (U19), so the type lacks them. -/
inductive Code where
  | ok
  | markerMismatch
  | incompleteHeader
  | truncatedPayload
  | streamTruncated
  | illegalCommand
  | sequence
  | badConfig
  | indexRange
  deriving DecidableEq, Repr

/-- A byte memory: the bytes written so far, by rising address. A byte no one has written is not listed (log 6). -/
abbrev Memory := List Host.Cell

/-- Why the model stops. The spec has no trap (60_exceptions.md R300); each of these can arise only in a state that no run reaches. -/
inductive Fault where
  /-- Raised by a Core turn with BUSY = 1 and MODE = NONE, for which 45_system.md R275 names no block step. Safe (log 13). -/
  | coreWithoutRun
  /-- Raised by a block step or a reset in flight that would use an FMEM address of 2^32 or more, which 20_memory.md R71 says is
  never used. Safe (log 12). -/
  | fmemAddress
  /-- Raised by a block step or a reset in flight that would use a PMEM address of 2^32 or more, which 20_memory.md R72 says is
  never used. Safe (log 12). -/
  | pmemAddress
  deriving DecidableEq, Repr

/-- What the model refuses. The only refusals of the block are those of register accesses (60_exceptions.md R321). -/
inductive Refusal where
  /-- Raised by an arm of `exec` whose instruction has no meaning yet (none has). Safe. -/
  | notModelled (mnemonic : String)
  /-- Raised by a register access that is misaligned or not 32 bits wide: "outside the interface and is refused by the model"
  (10_state.md R23). Safe (log 9). -/
  | registerAccess
  deriving DecidableEq, Repr

/-- The state of the block, its memories and the events to come. -/
structure State where
  /-- the build's constants: read through PARAM and the MARKER window (R55, R57) -/
  build : Build
  /-- STATUS (R25..R35) -/
  busy : Bool
  mode : Mode
  run : Run
  hdrValid : Bool
  exhausted : Bool
  partialEmb : Bool
  cmdErr : Code
  runErr : Code
  iterValid : Bool
  overrun : Bool
  /-- configuration registers (R37..R42) -/
  q : Word
  crow : BitVec 3
  ccol : BitVec 3
  frameW : Half
  frameH : Half
  payLen : Word
  parseLen : Word
  /-- operand and result registers (R43..R48) -/
  coefIn : Word
  coefOut : Word
  idx : DWord
  bitOut : Bool
  resLen : Word
  resOff : Word
  /-- run counters and diagnostics (R49..R54) -/
  frameCnt : Word
  bitsDone : DWord
  bitsReq : DWord
  errExp : DWord
  errObs : DWord
  iterRow : Half
  iterCol : Half
  /-- header bytes (R56) -/
  hdr : Vector Byte 64
  /-- hidden: the latched configuration (R58) and the byte under assembly (R59) -/
  lq : Word
  lcrow : BitVec 3
  lccol : BitVec 3
  lw : Half
  lh : Half
  llen : Word
  byteSr : Byte
  /-- the two memories (R71, R72) -/
  fmem : Memory
  pmem : Memory
  /-- the model's own: the events to come, the answer to the Host's latest read, the draws taken so far -/
  inputs : List Event
  rdData : Word
  draws : Nat
  deriving DecidableEq, Repr

/-- A block of build `b` right after power-on, which is a Reset (70_reset_and_hazards.md R340, R341, R343; 10_state.md R60). -/
def State.powerOn (b : Build) : State where
  build := b
  busy := false
  mode := .none
  run := .idle
  hdrValid := false
  exhausted := false
  partialEmb := false
  cmdErr := .ok
  runErr := .ok
  iterValid := false
  overrun := false
  q := BitVec.ofNat 32 (4 * b.one)
  crow := 2
  ccol := 1
  frameW := 0
  frameH := 0
  payLen := 0
  parseLen := 0
  coefIn := 0
  coefOut := 0
  idx := 0
  bitOut := false
  resLen := 0
  resOff := 0
  frameCnt := 0
  bitsDone := 0
  bitsReq := 0
  errExp := 0
  errObs := 0
  iterRow := 0
  iterCol := 0
  hdr := Vector.replicate 64 0
  lq := BitVec.ofNat 32 (4 * b.one)
  lcrow := 2
  lccol := 1
  lw := 0
  lh := 0
  llen := 0
  byteSr := 0
  fmem := []
  pmem := []
  inputs := []
  rdData := 0
  draws := 0

/-- The machine right after reset: the power-on state of the build of Config (10_state.md R60). -/
def State.reset : State := State.powerOn Config.build

end Sys2Proof.Machine
end

