-- ==== Sys2Proof/Machine/Ops.lean ====
section
/-! DEFINITION. The named operations over memories and registers that the command rules share: byte reads and writes, `raise`, the BUSY
check of every command, the counts, the iterator position, the latches, and Reset. -/

namespace Sys2Proof.Machine

/-! ### Byte memories (20_memory.md R70, R77, R79) -/

/-- The byte last written at address `a`, if any was. -/
def Memory.lookup : Memory → Nat → Option Byte
  | [], _ => none
  | (b, v) :: rest, a => if b = a then some v else Memory.lookup rest a

/-- Write one byte, keeping the addresses strictly rising. -/
def Memory.write : Memory → Nat → Byte → Memory
  | [], a, v => [(a, v)]
  | (b, w) :: rest, a, v =>
    if a < b then (a, v) :: (b, w) :: rest
    else if a = b then (a, v) :: rest
    else (b, w) :: Memory.write rest a v

/-- Write a list of cells, one after the other. Irreducible, so that no proof unfolds the 64 writes of a block unasked:
Laws/Memory.lean says what they do. -/
@[irreducible] def Memory.writeAll (m : Memory) (cells : List Host.Cell) : Memory :=
  cells.foldl (fun m c => Memory.write m c.1 c.2) m

/-- The canonical form: addresses strictly rising and inside the 32-bit space. -/
abbrev Memory.wf (m : Memory) : Prop :=
  m.Pairwise (fun x y => x.1 < y.1) ∧ ∀ c ∈ m, c.1 < 2 ^ 32

/-- MemRead(FMEM, a, 1): the last byte written, else the power-on draw (70_reset_and_hazards.md R343). -/
def State.fmemByte (s : State) (a : Nat) : Byte :=
  (Memory.lookup s.fmem a).getD (Config.fmemInit a)

/-- MemRead(PMEM, a, 1). -/
def State.pmemByte (s : State) (a : Nat) : Byte :=
  (Memory.lookup s.pmem a).getD (Config.pmemInit a)

/-- MemWrite(FMEM, a, 1, v). -/
def State.setFmem (s : State) (a : Nat) (v : Byte) : State :=
  { s with fmem := Memory.write s.fmem a v }

/-- MemWrite(PMEM, a, 1, v). -/
def State.setPmem (s : State) (a : Nat) (v : Byte) : State :=
  { s with pmem := Memory.write s.pmem a v }

/-! ### Errors and status (00_scope.md R11; 60_exceptions.md R300) -/

/-- reg[STATUS.CMD_ERR] <- c. -/
def State.setCmdErr (s : State) (c : Code) : State := { s with cmdErr := c }

/-- reg[ERR_EXP] <- e; reg[ERR_OBS] <- o (60_exceptions.md R306). The counts are bits. -/
def State.setCounts (s : State) (e o : DWord) : State := { s with errExp := e, errObs := o }

/-- reg[STATUS.OVERRUN] <- 1 (45_system.md R274). -/
def State.setOverrun (s : State) : State := { s with overrun := true }

/-- `raise CmdError(code)`: the command or step ends, CMD_ERR takes the code, and the writes made before it stand (00_scope.md R11;
60_exceptions.md R300). The block has no other exception entry and no return (R319). -/
def raise (c : Code) (s : State) : Host.Outcome State Fault Refusal :=
  .next (s.setCmdErr c)

/-- A command that succeeds writes CMD_ERR <- 0 (10_state.md R32). -/
def succeed (s : State) : Host.Outcome State Fault Refusal :=
  .next (s.setCmdErr .ok)

/-- Every command's first check: a CMD write while BUSY = 1 is dropped and sets OVERRUN (30_encoding.md R106; 45_system.md R274). -/
def whenReady (s : State) (body : State → Host.Outcome State Fault Refusal) : Host.Outcome State Fault Refusal :=
  if s.busy then .next s.setOverrun else body s

/-- What a CMD write of an illegal word does (30_encoding.md R105, R106). -/
def illegalCommand (s : State) : Host.Outcome State Fault Refusal :=
  whenReady s (raise .illegalCommand)

/-! ### The iterator position and the latches -/

/-- reg[ITER_POS] <- (row, col); reg[STATUS.ITER_VALID] <- valid. -/
def State.setIter (s : State) (p : Bool × Half × Half) : State :=
  { s with iterValid := p.1, iterRow := p.2.1, iterCol := p.2.2 }

/-- The latches a START copies (10_state.md R58). -/
def State.latch (s : State) (len : Word) : State :=
  { s with lq := s.q, lcrow := s.crow, lccol := s.ccol, lw := s.frameW, lh := s.frameH, llen := len }

/-! ### The model's own fields -/

/-- The events that remain. -/
def State.setInputs (s : State) (es : List Event) : State := { s with inputs := es }

/-- The answer to a read of the Host (45_system.md R273; log 10). -/
def State.setRdData (s : State) (v : Word) : State := { s with rdData := v }

/-- The counter of the draws taken so far (log 7). -/
def State.setDraws (s : State) (n : Nat) : State := { s with draws := n }

/-! ### Addresses of a block (42_iterator.md R194) -/

/-- The 64 coordinates of a block, row by row. -/
def blockCoords : List (Fin 8 × Fin 8) :=
  (List.finRange 8).flatMap fun i => (List.finRange 8).map fun j => (i, j)

/-- The FMEM address of sample (i, j) of the block at (row, col) in a frame of width w (42_iterator.md R194). -/
def sampleAddr (w row col : Half) (i j : Fin 8) : Nat :=
  (row.toNat + i.val) * w.toNat + (col.toNat + j.val)

/-- Every address of the block at ITER_POS in the running frame is an FMEM address (20_memory.md R71; log 12). -/
def State.blockInFmem (s : State) : Bool :=
  decide (sampleAddr s.lw s.iterRow s.iterCol 7 7 < 2 ^ 32)

/-- The block at ITER_POS as cells: each sample's address with its new value, row by row. -/
def State.blockCells (s : State) (f : Fin 8 → Fin 8 → Byte) : List Host.Cell :=
  blockCoords.map fun c => (sampleAddr s.lw s.iterRow s.iterCol c.1 c.2, f c.1 c.2)

/-- Write the 64 samples of the block at ITER_POS (43_embed.md R214). -/
def State.writeBlock (s : State) (f : Fin 8 → Fin 8 → Byte) : State :=
  { s with fmem := Memory.writeAll s.fmem (s.blockCells f) }

/-! ### Reset (70_reset_and_hazards.md R340..R343) -/

/-- Every register at its reset value; the build, the memories and the model's own fields keep theirs (10_state.md R60). -/
def State.resetRegs (s : State) : State :=
  { State.powerOn s.build with
    fmem := s.fmem, pmem := s.pmem, inputs := s.inputs, rdData := s.rdData, draws := s.draws }

/-- Reset during an embed step: the 64 samples of the block under write-back are draws (R342). -/
def State.drawBlock (s : State) : State :=
  (s.writeBlock fun i j => Config.draw (s.draws + (8 * i.val + j.val))).setDraws (s.draws + 64)

/-- HL, the header length in bits (40_framing.md R130). -/
def headerBits (b : Build) : Nat := 8 * (b.ml + 4)

/-- The PMEM address of the payload byte that stream bit j belongs to, for j at or past HL (40_framing.md R132). -/
def payloadAddr (b : Build) (j : Nat) : Nat := (j - headerBits b) / 8

/-- Reset during an extract step past the header: the byte under assembly is a draw (R342). -/
def State.drawByte (s : State) : State :=
  (s.setPmem (payloadAddr s.build s.bitsDone.toNat) (Config.draw s.draws)).setDraws (s.draws + 1)

/-- The reset event (R340..R342). -/
def resetEvent (s : State) : Host.Outcome State Fault Refusal :=
  if s.busy ∧ s.mode = .embed then
    if s.blockInFmem then .next s.drawBlock.resetRegs else .fault .fmemAddress
  else if s.busy ∧ s.mode = .extract ∧ headerBits s.build ≤ s.bitsDone.toNat then
    if payloadAddr s.build s.bitsDone.toNat < 2 ^ 32 then .next s.drawByte.resetRegs else .fault .pmemAddress
  else .next s.resetRegs

end Sys2Proof.Machine
end

