-- ==== Sys2Proof/Machine/Flags.lean ====
section
/-! DEFINITION. STATUS as the Host reads it: the codes of its fields and its layout (10_state.md R25..R35; 60_exceptions.md R301). -/

namespace Sys2Proof.Machine

/-- MODE, two bits (10_state.md R27). -/
def Mode.bits : Mode → BitVec 2
  | .none => 0
  | .embed => 1
  | .extract => 2

/-- RUN, two bits (10_state.md R28). -/
def Run.bits : Run → BitVec 2
  | .idle => 0
  | .active => 1
  | .done => 2
  | .failed => 3

/-- An outcome code, four bits (60_exceptions.md R301). -/
def Code.bits : Code → BitVec 4
  | .ok => 0
  | .markerMismatch => 1
  | .incompleteHeader => 2
  | .truncatedPayload => 3
  | .streamTruncated => 4
  | .illegalCommand => 5
  | .sequence => 6
  | .badConfig => 7
  | .indexRange => 8

/-- One flag as a bit. -/
def flagBit (b : Bool) : BitVec 1 := BitVec.ofBool b

/-- STATUS, bit 17 down to bit 0, and the reserved bits [31:18] = 0 (10_state.md R25). -/
def State.statusWord (s : State) : Word :=
  (0 : BitVec 14) ++ flagBit s.overrun ++ flagBit s.iterValid ++ s.runErr.bits ++ s.cmdErr.bits ++ flagBit s.partialEmb
    ++ flagBit s.exhausted ++ flagBit s.hdrValid ++ s.run.bits ++ s.mode.bits ++ flagBit s.busy

end Sys2Proof.Machine
end

