-- ==== Sys2Proof/Machine/Operands.lean ====
section
/-! DEFINITION. The register window: which register stands at which offset, what a read of it returns and which bits a write of it takes
(10_state.md R23, R37..R57; 45_system.md R272, R273). -/

namespace Sys2Proof.Machine

/-- The words of the register window, CMD apart (10_state.md R23, the register map). -/
inductive Reg where
  | status | q | coefPos | frameW | frameH | payLen | parseLen | coefIn | coefOut | idxLo | idxHi | result | resLen | resOff
  | frameCnt | bitsDoneLo | bitsDoneHi | bitsReqLo | bitsReqHi | errExpLo | errExpHi | errObsLo | errObsHi | iterPos | param
  | hdr (k : Fin 64)
  | marker (k : Fin 64)
  deriving DecidableEq, Repr

/-- The offset of CMD (10_state.md R24). -/
def cmdOffset : Nat := 0x000

/-- The register at a word-aligned offset; none for CMD and for an offset no rule defines (10_state.md R23). -/
def regAt (off : Nat) : Option Reg :=
  match off with
  | 0x004 => some .status
  | 0x008 => some .q
  | 0x00C => some .coefPos
  | 0x010 => some .frameW
  | 0x014 => some .frameH
  | 0x018 => some .payLen
  | 0x01C => some .parseLen
  | 0x020 => some .coefIn
  | 0x024 => some .coefOut
  | 0x028 => some .idxLo
  | 0x02C => some .idxHi
  | 0x030 => some .result
  | 0x034 => some .resLen
  | 0x038 => some .resOff
  | 0x03C => some .frameCnt
  | 0x040 => some .bitsDoneLo
  | 0x044 => some .bitsDoneHi
  | 0x048 => some .bitsReqLo
  | 0x04C => some .bitsReqHi
  | 0x050 => some .errExpLo
  | 0x054 => some .errExpHi
  | 0x058 => some .errObsLo
  | 0x05C => some .errObsHi
  | 0x060 => some .iterPos
  | 0x064 => some .param
  | n =>
    if 0x100 ≤ n ∧ n < 0x200 ∧ n % 4 = 0 then some (.hdr (Fin.ofNat 64 ((n - 0x100) / 4)))
    else if 0x200 ≤ n ∧ n < 0x300 ∧ n % 4 = 0 then some (.marker (Fin.ofNat 64 ((n - 0x200) / 4)))
    else none

/-- The lower and the upper word of a 64-bit register (00_scope.md R8; 92_eei_decisions.md D36). -/
def loWord (x : DWord) : Word := x.extractLsb' 0 32

def hiWord (x : DWord) : Word := x.extractLsb' 32 32

/-- HDR[k]: a header byte for k < 64 (10_state.md R56). -/
def State.hdrByte (s : State) (k : Nat) : Byte := (s.hdr[k]?).getD 0

/-- MARKER[k] for k < ML, and 0 for k >= ML (10_state.md R57). -/
def Build.markerByte (b : Build) (k : Nat) : Byte :=
  if k < b.ml then (b.marker[k]?).getD 0 else 0

/-- ROUND_TIE, two bits (10_state.md R55). -/
def RoundTie.bits : RoundTie → BitVec 2
  | .halfEven => 0
  | .halfAway => 1
  | .halfUp => 2

/-- PARAM (10_state.md R55). -/
def Build.paramWord (b : Build) : Word :=
  (0 : BitVec 14) ++ RoundTie.bits b.roundTie ++ BitVec.ofNat 8 b.frac.val ++ BitVec.ofNat 8 b.ml

/-- COEF_POS as it reads: CROW = [2:0], CCOL = [10:8], the rest 0 (10_state.md R38). -/
def State.coefPosWord (s : State) : Word := (0 : BitVec 21) ++ s.ccol ++ (0 : BitVec 5) ++ s.crow

/-- ITER_POS as it reads: ROW = [15:0], COL = [31:16] (10_state.md R54). -/
def State.iterPosWord (s : State) : Word := s.iterCol ++ s.iterRow

/-- The value of a register, its reserved bits 0 (45_system.md R273). -/
def State.readReg (s : State) : Reg → Word
  | .status => s.statusWord
  | .q => s.q
  | .coefPos => s.coefPosWord
  | .frameW => s.frameW.zeroExtend 32
  | .frameH => s.frameH.zeroExtend 32
  | .payLen => s.payLen
  | .parseLen => s.parseLen
  | .coefIn => s.coefIn
  | .coefOut => s.coefOut
  | .idxLo => loWord s.idx
  | .idxHi => hiWord s.idx
  | .result => (flagBit s.bitOut).zeroExtend 32
  | .resLen => s.resLen
  | .resOff => s.resOff
  | .frameCnt => s.frameCnt
  | .bitsDoneLo => loWord s.bitsDone
  | .bitsDoneHi => hiWord s.bitsDone
  | .bitsReqLo => loWord s.bitsReq
  | .bitsReqHi => hiWord s.bitsReq
  | .errExpLo => loWord s.errExp
  | .errExpHi => hiWord s.errExp
  | .errObsLo => loWord s.errObs
  | .errObsHi => hiWord s.errObs
  | .iterPos => s.iterPosWord
  | .param => Build.paramWord s.build
  | .hdr k => if k.val < s.build.ml + 4 then (s.hdrByte k.val).zeroExtend 32 else 0
  | .marker k => (Build.markerByte s.build k.val).zeroExtend 32

/-- What a register write changes: the non-reserved bits of a read-write register, and nothing of a read-only one
(45_system.md R272). -/
def State.writeReg (s : State) (r : Reg) (v : Word) : State :=
  match r with
  | .q => { s with q := v }
  | .coefPos => { s with crow := v.extractLsb' 0 3, ccol := v.extractLsb' 8 3 }
  | .frameW => { s with frameW := v.extractLsb' 0 16 }
  | .frameH => { s with frameH := v.extractLsb' 0 16 }
  | .payLen => { s with payLen := v }
  | .parseLen => { s with parseLen := v }
  | .coefIn => { s with coefIn := v }
  | .idxLo => { s with idx := hiWord s.idx ++ v }
  | .idxHi => { s with idx := v ++ loWord s.idx }
  | .status => s
  | .coefOut => s
  | .result => s
  | .resLen => s
  | .resOff => s
  | .frameCnt => s
  | .bitsDoneLo => s
  | .bitsDoneHi => s
  | .bitsReqLo => s
  | .bitsReqHi => s
  | .errExpLo => s
  | .errExpHi => s
  | .errObsLo => s
  | .errObsHi => s
  | .iterPos => s
  | .param => s
  | .hdr _ => s
  | .marker _ => s

end Sys2Proof.Machine
end

