-- ==== Sys2Proof/Machine/Framing.lean ====
section
/-! DEFINITION. The framing codec: the stream, the marker comparison, ParseFn, and the commands SER_BIT and PARSE (40_framing.md). -/

namespace Sys2Proof.Machine

/-- Bit m of a byte sequence, most significant bit first (20_memory.md R73; 00_scope.md R9). -/
def seqBit (bytes : Nat → Byte) (m : Nat) : Bool :=
  (bytes (m / 8)).getLsbD (7 - m % 8)

/-- BE32 (00_scope.md R10; 20_memory.md R74). The powers stand first in the products: the kernel unfolds a product along its second
factor. -/
def be32 (b0 b1 b2 b3 : Byte) : Nat :=
  2 ^ 24 * b0.toNat + 2 ^ 16 * b1.toNat + 2 ^ 8 * b2.toNat + b3.toNat

/-- The big-endian length held in the four bytes after the marker (20_memory.md R74). -/
def lengthField (b : Build) (bytes : Nat → Byte) : Nat :=
  be32 (bytes b.ml) (bytes (b.ml + 1)) (bytes (b.ml + 2)) (bytes (b.ml + 3))

/-- StreamByte(L, k) over a payload p (40_framing.md R131). -/
def streamByte (b : Build) (payload : Nat → Byte) (len k : Nat) : Byte :=
  if k < b.ml then Build.markerByte b k
  else if k < b.ml + 4 then BitVec.ofNat 8 (len >>> (8 * (b.ml + 3 - k)))
  else payload (k - b.ml - 4)

/-- StreamBit(L, i) over a payload p (40_framing.md R132). -/
def streamBit (b : Build) (payload : Nat → Byte) (len i : Nat) : Bool :=
  seqBit (streamByte b payload len) i

/-- N(L), the length of the stream in bits (40_framing.md R133). -/
def streamBits (b : Build) (len : Nat) : Nat := 8 * (b.ml + 4 + len)

/-- MarkerMatchBits (40_framing.md R136): the first bit at which a byte sequence differs from the marker, else 8*ML. -/
def markerMatchBits (b : Build) (bytes : Nat → Byte) : Nat :=
  ((List.range (8 * b.ml)).find? fun m => seqBit bytes m != seqBit (Build.markerByte b) m).getD (8 * b.ml)

/-- What ParseFn answers (40_framing.md R137). The two numbers of a failure are the expected and the observed count of bits. -/
inductive ParseResult where
  | incompleteHeader (exp obs : Nat)
  | markerMismatch (exp obs : Nat)
  | truncatedPayload (exp obs : Nat)
  | payload (off len : Nat)
  deriving DecidableEq, Repr

/-- ParseFn on a byte sequence of P bytes (40_framing.md R137). -/
def parseFn (b : Build) (bytes : Nat → Byte) (P : Nat) : ParseResult :=
  if P < b.ml + 4 then .incompleteHeader (8 * (b.ml + 4)) (8 * P)
  else
    let m := markerMatchBits b bytes
    if m < 8 * b.ml then .markerMismatch (8 * b.ml) m
    else
      let len := lengthField b bytes
      if P - (b.ml + 4) < len then .truncatedPayload (8 * (b.ml + 4 + len)) (8 * P)
      else .payload (b.ml + 4) len

/-- ERR_EXP and ERR_OBS take a pair of counts (60_exceptions.md R306). -/
def State.reportCounts (s : State) (e o : Nat) : State :=
  s.setCounts (BitVec.ofNat 64 e) (BitVec.ofNat 64 o)

/-- SER_BIT (40_framing.md R135). -/
def execSerBit (s : State) : Host.Outcome State Fault Refusal :=
  whenReady s fun s =>
    let n := streamBits s.build s.payLen.toNat
    if n ≤ s.idx.toNat then raise .indexRange (s.reportCounts n s.idx.toNat)
    else succeed { s with bitOut := streamBit s.build s.pmemByte s.payLen.toNat s.idx.toNat }

/-- What PARSE does with ParseFn's answer (40_framing.md R138). -/
def State.applyParse (s : State) (r : ParseResult) : Host.Outcome State Fault Refusal :=
  match r with
  | .incompleteHeader e o => raise .incompleteHeader (s.reportCounts e o)
  | .markerMismatch e o => raise .markerMismatch (s.reportCounts e o)
  | .truncatedPayload e o => raise .truncatedPayload (s.reportCounts e o)
  | .payload off len => succeed { s with resOff := BitVec.ofNat 32 off, resLen := BitVec.ofNat 32 len }

/-- PARSE (40_framing.md R138, R139): ParseFn on PMEM[0..PARSE_LEN), the payload left in place. -/
def execParse (s : State) : Host.Outcome State Fault Refusal :=
  whenReady s fun s => s.applyParse (parseFn s.build s.pmemByte s.parseLen.toNat)

end Sys2Proof.Machine
end

