-- ==== Sys2Proof/Machine/Iterator.lean ====
section
/-! DEFINITION. The frame block iterator: First, Next, and the commands ITER_RESET and ITER_NEXT (42_iterator.md). A position is
(valid, row, col). -/

namespace Sys2Proof.Machine

/-- First(W, H) (42_iterator.md R191). -/
def iterFirst (w h : Half) : Bool × Half × Half :=
  (decide (8 ≤ w.toNat ∧ 8 ≤ h.toNat), 0, 0)

/-- Next(W, H, row, col) (42_iterator.md R192). -/
def iterStep (w h row col : Half) : Bool × Half × Half :=
  if col.toNat + 16 ≤ w.toNat then (true, row, col + 8)
  else if row.toNat + 16 ≤ h.toNat then (true, row + 8, 0)
  else (false, row, col)

/-- The standalone iterator is refused during an active run (42_iterator.md R195, R196; 60_exceptions.md R308). -/
def whenNoActiveRun (s : State) (body : State → Host.Outcome State Fault Refusal) : Host.Outcome State Fault Refusal :=
  if s.run = .active then raise .sequence s else body s

/-- ITER_RESET (42_iterator.md R195): on the live FRAME_W and FRAME_H. -/
def execIterReset (s : State) : Host.Outcome State Fault Refusal :=
  whenReady s fun s => whenNoActiveRun s fun s => succeed (s.setIter (iterFirst s.frameW s.frameH))

/-- ITER_NEXT (42_iterator.md R196): nothing but CMD_ERR <- 0 when ITER_VALID = 0. -/
def execIterNext (s : State) : Host.Outcome State Fault Refusal :=
  whenReady s fun s => whenNoActiveRun s fun s =>
    if s.iterValid then succeed (s.setIter (iterStep s.frameW s.frameH s.iterRow s.iterCol)) else succeed s

end Sys2Proof.Machine
end

