-- ==== Sys2Proof/Machine/Qim.lean ====
section
/-! DEFINITION. The bit codec: Round, the two lattices, Encode, Decode, ToSample, and the commands QENC and QDEC (41_qim.md). All
arithmetic is exact, over the integers: Lean's `/` and `%` on Int with a positive divisor are the floor division and the non-negative
remainder of 00_scope.md R10. -/

namespace Sys2Proof.Machine

/-- The tie of Round: which neighbour of f + 1/2 is taken (41_qim.md R161). -/
def tieUp (tie : RoundTie) (f : Int) : Bool :=
  match tie with
  | .halfEven => f % 2 != 0
  | .halfAway => decide (0 ≤ f)
  | .halfUp => true

/-- Round(n, d), d > 0 (41_qim.md R161). -/
def roundDiv (tie : RoundTie) (n d : Int) : Int :=
  let f := n / d
  let r := n % d
  if 2 * r < d then f
  else if 2 * r > d then f + 1
  else if tieUp tie f then f + 1
  else f

/-- A raw step is legal when it is even and 2 <= q <= 2^30 (41_qim.md R162). -/
def legalStep (q : Word) : Bool :=
  q.toNat % 2 == 0 && decide (2 ≤ q.toNat) && decide (q.toNat ≤ 2 ^ 30)

/-- P0: the nearest lattice-0 point (41_qim.md R163). -/
def lattice0 (tie : RoundTie) (c q : Int) : Int := roundDiv tie c q * q

/-- P1: the nearest lattice-1 point (41_qim.md R164). -/
def lattice1 (tie : RoundTie) (c q : Int) : Int := roundDiv tie (c - q / 2) q * q + q / 2

/-- EncodeU (41_qim.md R165). -/
def encodeU (tie : RoundTie) (c : Int) (b : Bool) (q : Int) : Int :=
  if b then lattice1 tie c q else lattice0 tie c q

/-- COEF_MAX and COEF_MIN (00_scope.md R7). -/
def coefMax : Int := 2 ^ 31 - 1

def coefMin : Int := -2 ^ 31

/-- Encode: EncodeU, moved one step inward when it falls outside the coefficient range (41_qim.md R166). -/
def qimEncode (tie : RoundTie) (c : Int) (b : Bool) (q : Int) : Int :=
  let t := encodeU tie c b q
  let t := if t > coefMax then t - q else t
  if t < coefMin then t + q else t

/-- Decode: the bit of the nearer lattice, ties to 0 (41_qim.md R167, R168). -/
def qimDecode (tie : RoundTie) (c q : Int) : Bool :=
  let d0 := (c - lattice0 tie c q).natAbs
  let d1 := (c - lattice1 tie c q).natAbs
  !decide (d0 ≤ d1)

/-- Encode on raw words: a coefficient and a step in, a coefficient out. -/
def encodeWord (tie : RoundTie) (c : Word) (b : Bool) (q : Word) : Word :=
  BitVec.ofInt 32 (qimEncode tie c.toInt b q.toNat)

/-- Decode on raw words. -/
def decodeWord (tie : RoundTie) (c q : Word) : Bool :=
  qimDecode tie c.toInt q.toNat

/-- clamp (00_scope.md R10). -/
def clampInt (x lo hi : Int) : Int := min (max x lo) hi

/-- ToSample, as an integer of 0..255 (41_qim.md R172). -/
def toSampleInt (b : Build) (v : Int) : Int :=
  clampInt (roundDiv b.roundTie v b.one) 0 255

/-- ToSample on a raw word (41_qim.md R172). -/
def toSample (b : Build) (v : Word) : Byte :=
  BitVec.ofInt 8 (toSampleInt b v.toInt)

/-- QENC (41_qim.md R173). -/
def execQenc (b : Bool) (s : State) : Host.Outcome State Fault Refusal :=
  whenReady s fun s =>
    if legalStep s.q then succeed { s with coefOut := encodeWord s.build.roundTie s.coefIn b s.q }
    else raise .badConfig s

/-- QDEC (41_qim.md R174). -/
def execQdec (s : State) : Host.Outcome State Fault Refusal :=
  whenReady s fun s =>
    if legalStep s.q then succeed { s with bitOut := decodeWord s.build.roundTie s.coefIn s.q }
    else raise .badConfig s

end Sys2Proof.Machine
end

