-- ==== Sys2Proof/Machine/Embed.lean ====
section
/-! DEFINITION. The embedder: EMB_START, EMB_FRAME, EMB_END and the embed block step (43_embed.md). -/

namespace Sys2Proof.Machine

/-- The state of a run just started: latched configuration, counters and flags cleared (43_embed.md R211; 44_extract.md R240). -/
def State.startRun (s : State) (m : Mode) (len : Word) (req : Nat) : State :=
  { s.latch len with
    mode := m, run := .active, bitsDone := 0, bitsReq := BitVec.ofNat 64 req,
    exhausted := false, partialEmb := false, hdrValid := false, runErr := .ok,
    frameCnt := 0, errExp := 0, errObs := 0 }

/-- EMB_START (43_embed.md R211). -/
def execEmbStart (s : State) : Host.Outcome State Fault Refusal :=
  whenReady s fun s =>
    if legalStep s.q then succeed (s.startRun .embed s.payLen (streamBits s.build s.payLen.toNat))
    else raise .badConfig s

/-- FRAME_CNT counts an accepted frame command, modulo 2^32 (10_state.md R49). -/
def State.countFrame (s : State) : State := { s with frameCnt := s.frameCnt + 1 }

/-- A frame command starts at First(LW, LH) and is busy when that block exists (43_embed.md R212; 44_extract.md R242). -/
def State.beginFrame (s : State) : State :=
  let p := iterFirst s.lw s.lh
  { s.setIter p with busy := p.1 }

/-- EMB_FRAME, its acceptance (43_embed.md R212): a frame offered after exhaustion passes through. -/
def execEmbFrame (s : State) : Host.Outcome State Fault Refusal :=
  whenReady s fun s =>
    if s.mode = .embed ∧ s.run = .active then
      if s.exhausted then succeed s.countFrame else succeed s.countFrame.beginFrame
    else raise .sequence s

/-- EMB_END (43_embed.md R216): a partial embedding is a warning. -/
def execEmbEnd (s : State) : Host.Outcome State Fault Refusal :=
  whenReady s fun s =>
    if s.mode = .embed then
      if s.run = .active then
        if s.bitsDone.toNat < s.bitsReq.toNat then
          succeed { s.setCounts s.bitsReq s.bitsDone with partialEmb := true, run := .done }
        else succeed { s with run := .done }
      else succeed s
    else raise .sequence s

/-! ### The embed block step (43_embed.md R214, R215) -/

/-- The block at ITER_POS as it stands in FMEM (42_iterator.md R194). -/
def State.readBlock (s : State) : Block :=
  fun i j => s.fmemByte (sampleAddr s.lw s.iterRow s.iterCol i j)

/-- A grid with the designated coefficient replaced (43_embed.md R214). -/
def Grid.replace (g : Grid) (row col : Fin 8) (v : Word) : Grid :=
  fun i j => if i = row ∧ j = col then v else g i j

/-- The block that carries bit b: transform, Encode at the designated position, inverse transform, ToSample (43_embed.md R214). -/
def embeddedBlock (x : Transform) (s : State) (b : Bool) : Block :=
  let g := x.fwd s.readBlock
  let c := g s.lcrow.toFin s.lccol.toFin
  let h := x.inv (Grid.replace g s.lcrow.toFin s.lccol.toFin (encodeWord s.build.roundTie c b s.lq))
  fun i j => toSample s.build (h i j)

/-- The stream bit at the cursor (43_embed.md R214). -/
def State.cursorBit (s : State) : Bool :=
  streamBit s.build s.pmemByte s.llen.toNat s.bitsDone.toNat

/-- The position after the block just processed (42_iterator.md R192). -/
def State.advance (s : State) : State :=
  s.setIter (iterStep s.lw s.lh s.iterRow s.iterCol)

/-- The cursor moves by one bit and may reach its end (43_embed.md R214). -/
def State.moveCursor (s : State) : State :=
  let d := s.bitsDone + 1
  { s with bitsDone := d, exhausted := s.exhausted || d == s.bitsReq }

/-- BUSY falls when the stream or the frame ends (43_embed.md R215). -/
def State.endEmbedStep (s : State) : State :=
  { s with busy := s.busy && !(s.exhausted || !s.iterValid) }

/-- The embed block step (43_embed.md R214). It faults only on an address outside the 32-bit spaces (log 12). -/
def embedBlock (x : Transform) (s : State) : Host.Outcome State Fault Refusal :=
  if s.blockInFmem then
    if payloadAddr s.build s.bitsDone.toNat < 2 ^ 32 then
      .next (s.writeBlock (embeddedBlock x s s.cursorBit)).moveCursor.advance.endEmbedStep
    else .fault .pmemAddress
  else .fault .fmemAddress

end Sys2Proof.Machine
end

