-- ==== Sys2Proof/Machine/Extract.lean ====
section
/-! DEFINITION. The extractor: EXT_START, EXT_FRAME, EXT_END, the accumulator and the extract block step (44_extract.md). -/

namespace Sys2Proof.Machine

/-- EXT_START (44_extract.md R240): LLEN and BITS_REQ become 0, HDR and BYTE_SR are cleared. -/
def execExtStart (s : State) : Host.Outcome State Fault Refusal :=
  whenReady s fun s =>
    if legalStep s.q then succeed { s.startRun .extract 0 0 with hdr := Vector.replicate 64 0, byteSr := 0 }
    else raise .badConfig s

/-- EXT_FRAME, its acceptance (44_extract.md R242). -/
def execExtFrame (s : State) : Host.Outcome State Fault Refusal :=
  whenReady s fun s =>
    if s.mode = .extract ∧ s.run = .active then succeed s.countFrame.beginFrame
    else raise .sequence s

/-- The run fails with a code, which CMD_ERR also takes (60_exceptions.md R302, R305). -/
def State.failRun (s : State) (c : Code) : State := { s with run := .failed, runErr := c }

/-- EXT_END (44_extract.md R248). -/
def execExtEnd (s : State) : Host.Outcome State Fault Refusal :=
  whenReady s fun s =>
    if s.mode = .extract then
      if s.run = .active then
        raise .streamTruncated
          ((s.setCounts (if s.hdrValid then s.bitsReq else BitVec.ofNat 64 (headerBits s.build)) s.bitsDone).failRun .streamTruncated)
      else succeed s
    else raise .sequence s

/-! ### The extract block step (44_extract.md R243..R247) -/

/-- ((v << 1) | bit) & 0xFF (44_extract.md R243). -/
def shiftIn (v : Byte) (b : Bool) : Byte := (v <<< 1) ||| (if b then 1 else 0)

/-- The bit the block at ITER_POS carries (44_extract.md R243). -/
def extractedBit (x : Transform) (s : State) : Bool :=
  decodeWord s.build.roundTie (x.fwd s.readBlock s.lcrow.toFin s.lccol.toFin) s.lq

/-- Append one bit to the accumulator: to the header byte it belongs to, or to BYTE_SR, which goes to PMEM when its eighth bit
comes; BITS_DONE counts it (44_extract.md R243). -/
def State.appendBit (s : State) (b : Bool) : State :=
  let j := s.bitsDone.toNat
  if j < headerBits s.build then
    { s with hdr := s.hdr.setIfInBounds (j / 8) (shiftIn (s.hdrByte (j / 8)) b), bitsDone := s.bitsDone + 1 }
  else
    let sr := shiftIn s.byteSr b
    if (j - headerBits s.build) % 8 = 7 then
      { s.setPmem (payloadAddr s.build j) sr with byteSr := sr, bitsDone := s.bitsDone + 1 }
    else { s with byteSr := sr, bitsDone := s.bitsDone + 1 }

/-- The run fails in the block step that completes a header with a wrong marker (44_extract.md R244). -/
def State.markerFailure (s : State) (m : Nat) : State :=
  { (s.reportCounts (8 * s.build.ml) m).failRun .markerMismatch with busy := false }

/-- The declared length becomes known (44_extract.md R245). -/
def State.acceptHeader (s : State) : State :=
  { s with bitsReq := BitVec.ofNat 64 (headerBits s.build + 8 * lengthField s.build s.hdrByte), hdrValid := true }

/-- Completion, else the end of the frame (44_extract.md R246, R247). -/
def State.completeOrWait (s : State) : State :=
  if s.hdrValid ∧ s.bitsDone = s.bitsReq then
    { s with
      run := .done, resLen := BitVec.ofNat 32 ((s.bitsReq.toNat - headerBits s.build) / 8), resOff := 0, busy := false }
  else { s with busy := s.busy && s.iterValid }

/-- The checks at the end of an extract block step, in the order of 60_exceptions.md R318. -/
def State.checkHeader (s : State) : Host.Outcome State Fault Refusal :=
  if s.hdrValid = false ∧ s.bitsDone.toNat = headerBits s.build then
    let m := markerMatchBits s.build s.hdrByte
    if m < 8 * s.build.ml then raise .markerMismatch (s.markerFailure m)
    else .next s.acceptHeader.completeOrWait
  else .next s.completeOrWait

/-- The step completes a payload byte, which goes to PMEM (44_extract.md R243). -/
def State.storesByte (s : State) : Bool :=
  decide (headerBits s.build ≤ s.bitsDone.toNat) && (s.bitsDone.toNat - headerBits s.build) % 8 == 7

/-- The extract block step (44_extract.md R243). It faults only on an address outside the 32-bit spaces (log 12). -/
def extractBlock (x : Transform) (s : State) : Host.Outcome State Fault Refusal :=
  if s.blockInFmem then
    if s.storesByte = true ∧ 2 ^ 32 ≤ payloadAddr s.build s.bitsDone.toNat then .fault .pmemAddress
    else (s.appendBit (extractedBit x s)).advance.checkHeader
  else .fault .fmemAddress

end Sys2Proof.Machine
end

