-- ==== Sys2Proof/Machine/System.lean ====
section
/-! DEFINITION. NOP and ABORT (45_system.md R270, R271). -/

namespace Sys2Proof.Machine

/-- NOP (45_system.md R270): only CMD_ERR <- 0. -/
def execNop (s : State) : Host.Outcome State Fault Refusal :=
  whenReady s succeed

/-- The end of any run (45_system.md R271): counters, configuration, iterator, header and memories keep their values. -/
def State.endRun (s : State) : State :=
  { s with
    mode := .none, run := .idle, hdrValid := false, exhausted := false, partialEmb := false, runErr := .ok, overrun := false }

/-- ABORT (45_system.md R271). -/
def execAbort (s : State) : Host.Outcome State Fault Refusal :=
  whenReady s fun s => succeed s.endRun

end Sys2Proof.Machine
end

