-- ==== Sys2Proof/Machine/Dispatch.lean ====
section
/-! DEFINITION. The dispatch of a legal command word (30_encoding.md R104, R106): one arm per command. -/

namespace Sys2Proof.Machine

def exec (i : Instr) (s : State) : Host.Outcome State Fault Refusal :=
  match i with
  | .nop => Sys2Proof.Machine.execNop s
  | .qenc b => Sys2Proof.Machine.execQenc b s
  | .qdec => Sys2Proof.Machine.execQdec s
  | .iterReset => Sys2Proof.Machine.execIterReset s
  | .iterNext => Sys2Proof.Machine.execIterNext s
  | .serBit => Sys2Proof.Machine.execSerBit s
  | .parse => Sys2Proof.Machine.execParse s
  | .embStart => Sys2Proof.Machine.execEmbStart s
  | .embFrame => Sys2Proof.Machine.execEmbFrame s
  | .embEnd => Sys2Proof.Machine.execEmbEnd s
  | .extStart => Sys2Proof.Machine.execExtStart s
  | .extFrame => Sys2Proof.Machine.execExtFrame s
  | .extEnd => Sys2Proof.Machine.execExtEnd s
  | .abort => Sys2Proof.Machine.execAbort s

end Sys2Proof.Machine
end

