-- ==== Sys2Proof/Machine/HostBus.lean ====
section
/-! DEFINITION. The Host's transactions, the Core's turns and their interleaving (45_system.md R272..R276; 20_memory.md R83, R85). -/

namespace Sys2Proof.Machine

/-- A write of word w to CMD (30_encoding.md R106). -/
def cmdWrite (w : Word) (s : State) : Host.Outcome State Fault Refusal :=
  match decode w with
  | .instr i => exec i s
  | .illegal _ => illegalCommand s

/-- A register write (45_system.md R272; 10_state.md R23). -/
def regWrite (off : BitVec 12) (width : Nat) (v : Word) (s : State) : Host.Outcome State Fault Refusal :=
  if registerAccess off width then
    if off.toNat = cmdOffset then cmdWrite v s
    else
      match regAt off.toNat with
      | some r => .next (s.writeReg r v)
      | none => .next s
  else .refused .registerAccess

/-- The word a read at a word-aligned offset returns (45_system.md R273). -/
def State.readOffset (s : State) (off : Nat) : Word :=
  match regAt off with
  | some r => s.readReg r
  | none => 0

/-- A register read (45_system.md R273; 10_state.md R23). -/
def regRead (off : BitVec 12) (width : Nat) (s : State) : Host.Outcome State Fault Refusal :=
  if registerAccess off width then .next (s.setRdData (s.readOffset off.toNat)) else .refused .registerAccess

/-- The Host may touch this FMEM address: not inside the frame while BUSY = 1 (20_memory.md R83). -/
def State.hostMayUseFmem (s : State) (a : Word) : Bool :=
  !(s.busy && decide (a.toNat < s.lw.toNat * s.lh.toNat))

/-- The Host may read this PMEM address: not while an extract frame is busy (20_memory.md R83). -/
def State.hostMayReadPmem (s : State) : Bool :=
  !(s.busy && s.mode == .extract)

/-- The Host may write this PMEM address: not while an extract frame is busy, and not inside the payload from EMB_START to the end of
the embed run (20_memory.md R83, R85). -/
def State.hostMayWritePmem (s : State) (a : Word) : Bool :=
  s.hostMayReadPmem && !(s.mode == .embed && (s.busy || s.run == .active) && decide (a.toNat < s.llen.toNat))

/-- The event can happen now. A Host memory access that the contract forbids has no move, which is no refusal (20_memory.md R83, R85;
60_exceptions.md R321; 90_conflicts.md C8; log 8), and neither has the end of `wait` while BUSY = 1 (30_encoding.md R121; log 11). -/
def State.hasMove (s : State) (e : Event) : Bool :=
  match e with
  | .coreTurn => true
  | .wait => !s.busy
  | .reset => true
  | .regWrite _ _ _ => true
  | .regRead _ _ => true
  | .fmemWrite a _ => s.hostMayUseFmem a
  | .fmemRead a => s.hostMayUseFmem a
  | .pmemWrite a _ => s.hostMayWritePmem a
  | .pmemRead _ => s.hostMayReadPmem

/-- The Core's turn: one block step of the run, by MODE (45_system.md R275). -/
def coreStep (x : Transform) (s : State) : Host.Outcome State Fault Refusal :=
  match s.mode with
  | .embed => embedBlock x s
  | .extract => extractBlock x s
  | .none => .fault .coreWithoutRun

/-- The Core acts only while BUSY = 1 (45_system.md R275; 60_exceptions.md R327). -/
def coreTurn (x : Transform) (s : State) : Host.Outcome State Fault Refusal :=
  if s.busy then coreStep x s else .next s

/-- One event that has a move, after it has left the list. -/
def eventStep (x : Transform) (e : Event) (s : State) : Host.Outcome State Fault Refusal :=
  match e with
  | .coreTurn => coreTurn x s
  | .wait => .next (s.setRdData s.statusWord)
  | .reset => resetEvent s
  | .regWrite off width v => regWrite off width v s
  | .regRead off width => regRead off width s
  | .fmemWrite a v => .next (s.setFmem a.toNat v)
  | .fmemRead a => .next (s.setRdData ((s.fmemByte a.toNat).zeroExtend 32))
  | .pmemWrite a v => .next (s.setPmem a.toNat v)
  | .pmemRead a => .next (s.setRdData ((s.pmemByte a.toNat).zeroExtend 32))

/-- One atomic step of the execution (20_memory.md R78; 45_system.md R276). The next event of the list, if it has a move, leaves the
list and happens. Where the list is empty or its next event has no move, that event stays and the Core takes its turn if it is
enabled; an idle Core changes nothing (60_exceptions.md R327; log 8, log 15). -/
def machineStep (x : Transform) (s : State) : Host.Outcome State Fault Refusal :=
  match s.inputs with
  | [] => coreTurn x s
  | e :: rest => if s.hasMove e then eventStep x e (s.setInputs rest) else coreTurn x s

/-- The state whose next event is the Host's write of word w to CMD (log 2). -/
def State.withCommand (s : State) (w : Word) : State :=
  s.setInputs (.regWrite (BitVec.ofNat 12 cmdOffset) 32 w :: s.inputs)

end Sys2Proof.Machine
end

