-- ==== Sys2Proof/Machine/Step.lean ====
section
/-! DEFINITION. The step of the machine, with the transform pair of Config, and the host's placing of a command. -/

namespace Sys2Proof.Machine

/-- One atomic step (20_memory.md R78; 45_system.md R276). -/
def step (s : State) : Host.Outcome State Fault Refusal :=
  machineStep Config.transform s

/-- The command word w as the next event (log 2): a command is one 32-bit word (30_encoding.md R107), its bits above `nbits` 0. -/
def State.withFetchWord (s : State) (nbits w : Nat) : State :=
  s.withCommand (BitVec.ofNat 32 (w % 2 ^ nbits))

end Sys2Proof.Machine
end

