-- ==== Sys2Proof/Safety.lean ====
section
/-! DEFINITION. What claims about whole runs are stated with: the invariants of 10_state.md R36, the invariant of a run, the iterator's
sequence, and the Core running by itself. -/

namespace Sys2Proof.Machine

/-- The relations between the fields of STATUS that 10_state.md R36 lists, in its order. -/
structure State.StatusInv (s : State) : Prop where
  noneIdle : s.mode = .none ↔ s.run = .idle
  busyActive : s.busy = true → s.run = .active
  hdrExtract : s.hdrValid = true → s.mode = .extract
  exhaustedEmbed : s.exhausted = true → s.mode = .embed
  partialDone : s.partialEmb = true → s.mode = .embed ∧ s.run = .done
  errFailed : s.runErr ≠ .ok → s.mode = .extract ∧ s.run = .failed
  failedExtract : s.run = .failed → s.mode = .extract

/-- While a frame is busy, ITER_POS is a complete block of the latched frame (10_state.md R34; 42_iterator.md R190). -/
def State.FrameInv (s : State) : Prop :=
  s.busy = true →
    s.iterValid = true ∧ s.iterRow.toNat % 8 = 0 ∧ s.iterCol.toNat % 8 = 0
      ∧ s.iterRow.toNat + 8 ≤ s.lh.toNat ∧ s.iterCol.toNat + 8 ≤ s.lw.toNat

/-- The cursor of an embed run (10_state.md R30, R50, R51; 43_embed.md R213). -/
def State.EmbedInv (s : State) : Prop :=
  s.mode = .embed →
    s.bitsReq.toNat = streamBits s.build s.llen.toNat ∧ s.bitsDone.toNat ≤ s.bitsReq.toNat
      ∧ (s.exhausted = true ↔ s.bitsDone = s.bitsReq) ∧ (s.busy = true → s.exhausted = false)

/-- The accumulator of an extract run: before the header is checked it is short of HL bits; once it is valid, the header holds the
marker and the length that BITS_REQ is computed from (10_state.md R29, R50, R51; 44_extract.md R244, R245, R246). -/
def State.ExtractInv (s : State) : Prop :=
  s.mode = .extract →
    (s.hdrValid = false →
      s.bitsDone.toNat ≤ headerBits s.build ∧ s.bitsReq = 0 ∧ (s.run = .active → s.bitsDone.toNat < headerBits s.build)
        ∧ s.run ≠ .done)
    ∧ (s.hdrValid = true →
      markerMatchBits s.build s.hdrByte = 8 * s.build.ml
        ∧ s.bitsReq.toNat = headerBits s.build + 8 * lengthField s.build s.hdrByte
        ∧ headerBits s.build ≤ s.bitsDone.toNat ∧ s.bitsDone.toNat ≤ s.bitsReq.toNat
        ∧ (s.run = .active → s.bitsDone.toNat < s.bitsReq.toNat)
        ∧ (s.run = .done → s.bitsDone = s.bitsReq))

/-- What holds in every reachable state: R36, a busy frame inside its bounds, a run inside its stream, a legal latched step (R58,
R309), and memories in canonical form. -/
structure State.Inv (s : State) : Prop where
  status : s.StatusInv
  frame : s.FrameInv
  embed : s.EmbedInv
  extract : s.ExtractInv
  step : legalStep s.lq = true
  fmem : Memory.wf s.fmem
  pmem : Memory.wf s.pmem

/-- The n-th position of the iterator: First, then Next while valid (42_iterator.md R193). -/
def iterAt (w h : Half) : Nat → Bool × Half × Half
  | 0 => iterFirst w h
  | n + 1 =>
    let p := iterAt w h n
    if p.1 then iterStep w h p.2.1 p.2.2 else p

/-- `k` turns of the Core and nothing else (45_system.md R276, fairness). -/
def coreTurns (x : Transform) : Nat → State → Host.Outcome State Fault Refusal
  | 0, s => .next s
  | k + 1, s =>
    match coreTurn x s with
    | .next t => coreTurns x k t
    | .fault r => .fault r
    | .refused r => .refused r

/-- The run state admits the command (60_exceptions.md R308, its table). -/
def sequenceAllows (i : Instr) (s : State) : Bool :=
  match i with
  | .nop => true
  | .qenc _ => true
  | .qdec => true
  | .serBit => true
  | .parse => true
  | .embStart => true
  | .extStart => true
  | .abort => true
  | .iterReset => s.run != .active
  | .iterNext => s.run != .active
  | .embFrame => s.mode == .embed && s.run == .active
  | .embEnd => s.mode == .embed
  | .extFrame => s.mode == .extract && s.run == .active
  | .extEnd => s.mode == .extract

/-- Every byte of both memories reads as before. -/
def sameMemory (s t : State) : Prop :=
  ∀ a, t.fmemByte a = s.fmemByte a ∧ t.pmemByte a = s.pmemByte a

/-- The live registers that a START latches, and the operands of the standalone commands (70_reset_and_hazards.md R351). -/
structure LiveRegs where
  q : Word
  crow : BitVec 3
  ccol : BitVec 3
  frameW : Half
  frameH : Half
  payLen : Word
  parseLen : Word
  coefIn : Word
  idx : DWord
  deriving DecidableEq, Repr

/-- A state with other values in its read-write registers. -/
def State.withLive (s : State) (l : LiveRegs) : State :=
  { s with
    q := l.q, crow := l.crow, ccol := l.ccol, frameW := l.frameW, frameH := l.frameH, payLen := l.payLen, parseLen := l.parseLen,
    coefIn := l.coefIn, idx := l.idx }

/-- A change made to the next state, if there is one. -/
def mapNext (f : State → State) : Host.Outcome State Fault Refusal → Host.Outcome State Fault Refusal
  | .next t => .next (f t)
  | .fault r => .fault r
  | .refused r => .refused r

/-- The bytes of the accumulator of a complete extraction: the header, then the payload in PMEM (44_extract.md R241, R249). -/
def State.accumulated (s : State) (k : Nat) : Byte :=
  if k < s.build.ml + 4 then s.hdrByte k else s.pmemByte (k - (s.build.ml + 4))

end Sys2Proof.Machine
end

