-- ==== Sys2Proof/Certificates/Slice0/Obligations.lean ====
section
/-! DEFINITION. The statements for the provers, from the numbered rules of spec/. Each docstring names its rules; OBLIGATIONS.json lists
them. `x : Transform` is any transform pair, and a state carries any legal build, so no statement rests on an OPEN parameter. -/

open Sys2Proof Sys2Proof.Machine

/-! ### Command words -/

/-- R104: the words of the opcode map are the legal words, each that of its command, and no others. -/
def Obligations.OpcodeMapIsExact : Prop :=
  ∀ (w : Word) (i : Instr), decode w = .instr i ↔
    (w, i) ∈ [((0x00000000 : Word), Instr.nop), (0x00000001, .qenc false), (0x00000101, .qenc true), (0x00000002, .qdec),
      (0x00000008, .iterReset), (0x00000009, .iterNext), (0x00000010, .serBit), (0x00000011, .parse), (0x00000020, .embStart),
      (0x00000021, .embFrame), (0x00000022, .embEnd), (0x00000030, .extStart), (0x00000031, .extFrame), (0x00000032, .extEnd),
      (0x0000003F, .abort)]

/-- R100, R101, R107: decoding and encoding are inverse to each other on all words and all commands. -/
def Obligations.DecodeEncodeAgree : Prop :=
  (∀ i : Instr, i.wellFormed = true → decode (encode i) = .instr i)
    ∧ ∀ (w : Word) (i : Instr), decode w = .instr i → i.wellFormed = true ∧ encode i = w

/-- R105: when a word is illegal, and what writing it to CMD does while BUSY = 0. -/
def Obligations.IllegalWords : Prop :=
  (∀ w : Word, (∃ why, decode w = .illegal why) ↔
    (w.extractLsb' 9 23 ≠ 0
      ∨ w.extractLsb' 0 8 ∉ ([0x00, 0x01, 0x02, 0x08, 0x09, 0x10, 0x11, 0x20, 0x21, 0x22, 0x30, 0x31, 0x32, 0x3F] : List Byte)
      ∨ (w.getLsbD 8 = true ∧ w.extractLsb' 0 8 ≠ (0x01 : Byte))))
    ∧ ∀ (w : Word) (why : Illegal) (s : State), decode w = .illegal why → s.busy = false →
        cmdWrite w s = .next { s with cmdErr := .illegalCommand }

/-- R104, on three words written out from the map, one of each field at work. -/
def Obligations.SampleWordsDecode : Prop :=
  decode 0b00000000000000000000000100000001 = .instr (.qenc true)
    ∧ decode 0b00000000000000000000000000110001 = .instr .extFrame
    ∧ decode 0b00000000000000000000001000000001 = .illegal .reservedBits

/-- R106, R272: a step at which the Host writes a legal word to CMD is the command's meaning, on the state with that transaction
taken off the list of coming events, which is the model's (log 1). -/
def Obligations.StepRunsTheCommand : Prop :=
  ∀ (s : State) (w : Word) (i : Instr) (rest : List Event),
    s.inputs = .regWrite 0x000 32 w :: rest → decode w = .instr i → i.wellFormed = true → step s = exec i { s with inputs := rest }

/-- R274: a CMD write while BUSY = 1 is dropped, whatever the word. -/
def Obligations.BusyDropsCommand : Prop :=
  ∀ (w : Word) (s : State), s.busy = true → cmdWrite w s = .next { s with overrun := true }

/-- R308: the table of run states, SEQUENCE exactly outside it, and nothing else written then. -/
def Obligations.SequenceTable : Prop :=
  ∀ (i : Instr) (s : State), s.busy = false →
    (sequenceAllows i s = false → exec i s = .next { s with cmdErr := .sequence })
      ∧ (sequenceAllows i s = true → ∀ t, exec i s = .next t → t.cmdErr ≠ .sequence)

/-- R309, R162: the four commands that use Q fail with BAD_CONFIG exactly when Q is odd, below 2 or above 2^30. -/
def Obligations.BadConfigExactly : Prop :=
  ∀ (i : Instr) (s : State), (i = .qenc false ∨ i = .qenc true ∨ i = .qdec ∨ i = .embStart ∨ i = .extStart) → s.busy = false →
    ((s.q.toNat % 2 = 1 ∨ s.q.toNat < 2 ∨ 2 ^ 30 < s.q.toNat) → exec i s = .next { s with cmdErr := .badConfig })
      ∧ (s.q.toNat % 2 = 0 → 2 ≤ s.q.toNat → s.q.toNat ≤ 2 ^ 30 → ∀ t, exec i s = .next t → t.cmdErr = .ok)

/-! ### NOP, ABORT -/

/-- R270, R271: NOP and ABORT. -/
def Obligations.ControlEffects : Prop :=
  ∀ s : State, s.busy = false →
    exec .nop s = .next { s with cmdErr := .ok }
      ∧ exec .abort s = .next { s with
          mode := .none, run := .idle, hdrValid := false, exhausted := false, partialEmb := false, runErr := .ok, overrun := false,
          cmdErr := .ok }

/-! ### The bit codec -/

/-- R161: Round gives a nearest integer, and on a tie the one ROUND_TIE names. -/
def Obligations.RoundIsNearest : Prop :=
  ∀ (tie : RoundTie) (n d : Int), 0 < d →
    2 * |n - roundDiv tie n d * d| ≤ d
      ∧ (2 * (n % d) = d →
          (tie = .halfEven → roundDiv tie n d % 2 = 0)
            ∧ (tie = .halfAway → |n| < |roundDiv tie n d * d|)
            ∧ (tie = .halfUp → n < roundDiv tie n d * d))

/-- R165, R166: EncodeU lies on lattice b within q/2 of c; Encode stays on lattice b and inside the coefficient range, by at most one
step inward. -/
def Obligations.EncodeOnLatticeInRange : Prop :=
  ∀ (tie : RoundTie) (c : Word) (b : Bool) (q : Word), legalStep q = true →
    (∃ k : Int, encodeU tie c.toInt b q.toNat = k * q.toNat + (if b then (q.toNat : Int) / 2 else 0))
      ∧ |encodeU tie c.toInt b q.toNat - c.toInt| ≤ (q.toNat : Int) / 2
      ∧ (-2 ^ 31 ≤ qimEncode tie c.toInt b q.toNat ∧ qimEncode tie c.toInt b q.toNat ≤ 2 ^ 31 - 1)
      ∧ (∃ k : Int, qimEncode tie c.toInt b q.toNat = k * q.toNat + (if b then (q.toNat : Int) / 2 else 0))
      ∧ (encodeU tie c.toInt b q.toNat > 2 ^ 31 - 1 → qimEncode tie c.toInt b q.toNat = encodeU tie c.toInt b q.toNat - q.toNat)
      ∧ (encodeU tie c.toInt b q.toNat < -2 ^ 31 → qimEncode tie c.toInt b q.toNat = encodeU tie c.toInt b q.toNat + q.toNat)
      ∧ (-2 ^ 31 ≤ encodeU tie c.toInt b q.toNat → encodeU tie c.toInt b q.toNat ≤ 2 ^ 31 - 1 →
          qimEncode tie c.toInt b q.toNat = encodeU tie c.toInt b q.toNat)
      ∧ (encodeWord tie c b q).toInt = qimEncode tie c.toInt b q.toNat

/-- R169: Decode by the residue of c, and the two distances. -/
def Obligations.DecodeByResidue : Prop :=
  ∀ (tie : RoundTie) (c : Int) (q : Word), legalStep q = true →
    (qimDecode tie c q.toNat = true ↔ (q.toNat : Int) < 4 * (c % q.toNat) ∧ 4 * (c % q.toNat) < 3 * (q.toNat : Int))
      ∧ |c - lattice0 tie c q.toNat| = min (c % q.toNat) (q.toNat - c % q.toNat)
      ∧ |c - lattice1 tie c q.toNat| = |c % q.toNat - (q.toNat : Int) / 2|
      ∧ (|c - lattice0 tie c q.toNat| = |c - lattice1 tie c q.toNat| ↔
          4 * (c % q.toNat) = (q.toNat : Int) ∨ 4 * (c % q.toNat) = 3 * (q.toNat : Int))

/-- R170: Decode does not depend on ROUND_TIE; Encode does, and only at the half points. -/
def Obligations.TieRuleReach : Prop :=
  (∀ (t u : RoundTie) (c : Int) (q : Word), legalStep q = true →
      qimDecode t c q.toNat = qimDecode u c q.toNat
        ∧ (c % q.toNat ≠ (q.toNat : Int) / 2 → qimEncode t c false q.toNat = qimEncode u c false q.toNat)
        ∧ (c % q.toNat ≠ 0 → qimEncode t c true q.toNat = qimEncode u c true q.toNat)
        ∧ (c % q.toNat = (q.toNat : Int) / 2 → |c - lattice0 t c q.toNat| = (q.toNat : Int) / 2)
        ∧ (c % q.toNat = 0 → |c - lattice1 t c q.toNat| = (q.toNat : Int) / 2))
    ∧ (∃ (c : Int) (q : Word), legalStep q = true ∧ c % q.toNat = (q.toNat : Int) / 2
        ∧ qimEncode .halfEven c false q.toNat ≠ qimEncode .halfUp c false q.toNat)
    ∧ ∃ (c : Int) (q : Word), legalStep q = true ∧ c % q.toNat = 0
        ∧ qimEncode .halfEven c true q.toNat ≠ qimEncode .halfAway c true q.toNat

/-- R171 (a) to (d): the stability laws. -/
def Obligations.StabilityLaws : Prop :=
  ∀ (tie : RoundTie) (c0 : Word) (b : Bool) (q : Word), legalStep q = true →
    qimDecode tie (qimEncode tie c0.toInt b q.toNat) q.toNat = b
      ∧ (∀ e : Int, 4 * |e| < q.toNat → -2 ^ 31 ≤ qimEncode tie c0.toInt b q.toNat + e →
          qimEncode tie c0.toInt b q.toNat + e ≤ 2 ^ 31 - 1 → qimDecode tie (qimEncode tie c0.toInt b q.toNat + e) q.toNat = b)
      ∧ (∀ e : Int, 4 * |e| = q.toNat → qimDecode tie (qimEncode tie c0.toInt b q.toNat + e) q.toNat = false)
      ∧ qimEncode tie (qimEncode tie c0.toInt b q.toNat) b q.toNat = qimEncode tie c0.toInt b q.toNat

/-- R172: rounding and clamping of a sample commute, and Round is the identity at F = 0. -/
def Obligations.SampleRoundClampCommute : Prop :=
  ∀ (b : Build) (v : Word),
    (toSample b v).toNat = clampInt (roundDiv b.roundTie v.toInt (2 ^ b.frac.val)) 0 255
      ∧ clampInt (roundDiv b.roundTie v.toInt (2 ^ b.frac.val)) 0 255
        = roundDiv b.roundTie (clampInt v.toInt 0 (255 * 2 ^ b.frac.val)) (2 ^ b.frac.val)
      ∧ (b.frac = 0 → roundDiv b.roundTie v.toInt (2 ^ b.frac.val) = v.toInt)

/-- R173, R174: QENC and QDEC with a legal Q. -/
def Obligations.CodecEffects : Prop :=
  ∀ s : State, s.busy = false → legalStep s.q = true →
    (∀ b, exec (.qenc b) s = .next { s with
        coefOut := BitVec.ofInt 32 (qimEncode s.build.roundTie s.coefIn.toInt b s.q.toNat), cmdErr := .ok })
      ∧ exec .qdec s = .next { s with bitOut := qimDecode s.build.roundTie s.coefIn.toInt s.q.toNat, cmdErr := .ok }

/-- R173, R174, R171(a): a coefficient that QENC made and the Host feeds back through COEF_IN decodes to the bit that was given,
and QENC of the same bit leaves it alone. -/
def Obligations.QencQdecRoundTrip : Prop :=
  ∀ (s t : State) (b : Bool), s.busy = false → legalStep s.q = true → exec (.qenc b) s = .next t →
    (∃ u, exec .qdec { t with coefIn := t.coefOut } = .next u ∧ u.bitOut = b)
      ∧ ∃ u, exec (.qenc b) { t with coefIn := t.coefOut } = .next u ∧ u.coefOut = t.coefOut

/-! ### The iterator -/

/-- R191, R192, R195, R196: ITER_RESET and ITER_NEXT outside an active run, in each case of First and Next and with ITER_VALID = 0. -/
def Obligations.IteratorCommandEffects : Prop :=
  ∀ s : State, s.busy = false → s.run ≠ .active →
    exec .iterReset s = .next { s with
        iterValid := decide (8 ≤ s.frameW.toNat ∧ 8 ≤ s.frameH.toNat), iterRow := 0, iterCol := 0, cmdErr := .ok }
      ∧ (s.iterValid = false → exec .iterNext s = .next { s with cmdErr := .ok })
      ∧ (s.iterValid = true → s.iterCol.toNat + 16 ≤ s.frameW.toNat →
          exec .iterNext s = .next { s with iterCol := s.iterCol + 8, cmdErr := .ok })
      ∧ (s.iterValid = true → s.frameW.toNat < s.iterCol.toNat + 16 → s.iterRow.toNat + 16 ≤ s.frameH.toNat →
          exec .iterNext s = .next { s with iterRow := s.iterRow + 8, iterCol := 0, cmdErr := .ok })
      ∧ (s.iterValid = true → s.frameW.toNat < s.iterCol.toNat + 16 → s.frameH.toNat < s.iterRow.toNat + 16 →
          exec .iterNext s = .next { s with iterValid := false, cmdErr := .ok })

/-- R190, R193: the n-th position of the iterator, row bands top to bottom and left to right in a band, and where it ends. -/
def Obligations.IteratorOrder : Prop :=
  ∀ w h : Half,
    (∀ n, n < (h.toNat / 8) * (w.toNat / 8) →
      (iterAt w h n).1 = true
        ∧ (iterAt w h n).2.1.toNat = 8 * (n / (w.toNat / 8)) ∧ (iterAt w h n).2.2.toNat = 8 * (n % (w.toNat / 8))
        ∧ (iterAt w h n).2.1.toNat ≤ 65520 ∧ (iterAt w h n).2.2.toNat ≤ 65520)
      ∧ (∀ n, (h.toNat / 8) * (w.toNat / 8) ≤ n → (iterAt w h n).1 = false)
      ∧ ∀ row col : Half,
          ((∃ n, n < (h.toNat / 8) * (w.toNat / 8) ∧ iterAt w h n = (true, row, col)) ↔
            row.toNat % 8 = 0 ∧ col.toNat % 8 = 0 ∧ row.toNat + 8 ≤ h.toNat ∧ col.toNat + 8 ≤ w.toNat)

/-! ### Framing -/

/-- R131, R132: the three zones of the stream's bytes; a stream bit is bit 7 - (i mod 8) of byte i div 8, a header bit reads no payload
and a payload bit reads one byte of it. -/
def Obligations.StreamBytesAndBits : Prop :=
  ∀ (b : Build) (p : Nat → Byte) (len : Nat), len < 2 ^ 32 →
    (∀ k, k < b.ml → streamByte b p len k = (b.marker[k]?).getD 0)
      ∧ (∀ k, b.ml ≤ k → k < b.ml + 4 → (streamByte b p len k).toNat = len / 2 ^ (8 * (b.ml + 3 - k)) % 256)
      ∧ (∀ k, b.ml + 4 ≤ k → streamByte b p len k = p (k - b.ml - 4))
      ∧ (∀ i, streamBit b p len i = (streamByte b p len (i / 8)).getLsbD (7 - i % 8))
      ∧ (∀ i, i < 8 * (b.ml + 4) → ∀ p', streamBit b p' len i = streamBit b p len i)
      ∧ ∀ i, 8 * (b.ml + 4) ≤ i → streamBit b p len i = (p ((i - 8 * (b.ml + 4)) / 8)).getLsbD (7 - i % 8)

/-- R135, R311: SER_BIT below N(L), and at or past it. -/
def Obligations.SerBitEffect : Prop :=
  ∀ s : State, s.busy = false →
    (s.idx.toNat < 8 * (s.build.ml + 4 + s.payLen.toNat) →
      exec .serBit s = .next { s with
        bitOut := (streamByte s.build s.pmemByte s.payLen.toNat (s.idx.toNat / 8)).getLsbD (7 - s.idx.toNat % 8), cmdErr := .ok })
    ∧ (8 * (s.build.ml + 4 + s.payLen.toNat) ≤ s.idx.toNat →
      exec .serBit s = .next { s with
        errExp := BitVec.ofNat 64 (8 * (s.build.ml + 4 + s.payLen.toNat)), errObs := s.idx, cmdErr := .indexRange })

/-- R136: MarkerMatchBits is the first differing bit, and all of the marker exactly when its bytes are equal. -/
def Obligations.MarkerMatchFirstDifference : Prop :=
  ∀ (b : Build) (bytes : Nat → Byte),
    markerMatchBits b bytes ≤ 8 * b.ml
      ∧ (∀ m, m < markerMatchBits b bytes →
          (bytes (m / 8)).getLsbD (7 - m % 8) = (Build.markerByte b (m / 8)).getLsbD (7 - m % 8))
      ∧ (markerMatchBits b bytes < 8 * b.ml →
          (bytes (markerMatchBits b bytes / 8)).getLsbD (7 - markerMatchBits b bytes % 8)
            ≠ (Build.markerByte b (markerMatchBits b bytes / 8)).getLsbD (7 - markerMatchBits b bytes % 8))
      ∧ (markerMatchBits b bytes = 8 * b.ml ↔ ∀ k, k < b.ml → bytes k = Build.markerByte b k)

/-- R74, R137, R138: PARSE in each of its four outcomes, and the length field they compare: four bytes after the marker, big-endian. -/
def Obligations.ParseEffect : Prop :=
  ∀ s : State, s.busy = false →
    (s.parseLen.toNat < s.build.ml + 4 →
      exec .parse s = .next { s with
        errExp := BitVec.ofNat 64 (8 * (s.build.ml + 4)), errObs := BitVec.ofNat 64 (8 * s.parseLen.toNat),
        cmdErr := .incompleteHeader })
    ∧ (s.build.ml + 4 ≤ s.parseLen.toNat → (∃ k, k < s.build.ml ∧ s.pmemByte k ≠ Build.markerByte s.build k) →
      exec .parse s = .next { s with
        errExp := BitVec.ofNat 64 (8 * s.build.ml), errObs := BitVec.ofNat 64 (markerMatchBits s.build s.pmemByte),
        cmdErr := .markerMismatch })
    ∧ (s.build.ml + 4 ≤ s.parseLen.toNat → (∀ k, k < s.build.ml → s.pmemByte k = Build.markerByte s.build k) →
      s.parseLen.toNat - (s.build.ml + 4) < lengthField s.build s.pmemByte →
      exec .parse s = .next { s with
        errExp := BitVec.ofNat 64 (8 * (s.build.ml + 4 + lengthField s.build s.pmemByte)),
        errObs := BitVec.ofNat 64 (8 * s.parseLen.toNat), cmdErr := .truncatedPayload })
    ∧ (s.build.ml + 4 ≤ s.parseLen.toNat → (∀ k, k < s.build.ml → s.pmemByte k = Build.markerByte s.build k) →
      lengthField s.build s.pmemByte ≤ s.parseLen.toNat - (s.build.ml + 4) →
      exec .parse s = .next { s with
        resOff := BitVec.ofNat 32 (s.build.ml + 4), resLen := BitVec.ofNat 32 (lengthField s.build s.pmemByte), cmdErr := .ok })
    ∧ ∀ bytes : Nat → Byte, lengthField s.build bytes
        = 2 ^ 24 * (bytes s.build.ml).toNat + 2 ^ 16 * (bytes (s.build.ml + 1)).toNat + 2 ^ 8 * (bytes (s.build.ml + 2)).toNat
          + (bytes (s.build.ml + 3)).toNat

/-- R140: parsing what was serialized gives the payload back, with any bytes appended. -/
def Obligations.FramingRoundTrip : Prop :=
  ∀ (b : Build) (p bytes : Nat → Byte) (len P : Nat), len < 2 ^ 32 → (∀ k, k < b.ml + 4 + len → bytes k = streamByte b p len k) →
    b.ml + 4 + len ≤ P →
    parseFn b bytes P = .payload (b.ml + 4) len ∧ ∀ i, i < len → bytes (b.ml + 4 + i) = p i

/-! ### The embedder -/

/-- R211: EMB_START with a legal Q. -/
def Obligations.EmbStartEffect : Prop :=
  ∀ s : State, s.busy = false → legalStep s.q = true →
    exec .embStart s = .next { s with
      lq := s.q, lcrow := s.crow, lccol := s.ccol, lw := s.frameW, lh := s.frameH, llen := s.payLen,
      mode := .embed, run := .active, bitsDone := 0, bitsReq := BitVec.ofNat 64 (8 * (s.build.ml + 4 + s.payLen.toNat)),
      exhausted := false, partialEmb := false, hdrValid := false, runErr := .ok,
      frameCnt := 0, errExp := 0, errObs := 0, cmdErr := .ok }

/-- R212, R213: EMB_FRAME of an active embed run: passed through after exhaustion, complete at once without a block, busy else. -/
def Obligations.EmbFrameEffect : Prop :=
  ∀ s : State, s.busy = false → s.mode = .embed → s.run = .active →
    (s.exhausted = true → exec .embFrame s = .next { s with frameCnt := s.frameCnt + 1, cmdErr := .ok })
      ∧ (s.exhausted = false → (s.lw.toNat < 8 ∨ s.lh.toNat < 8) →
          exec .embFrame s = .next { s with
            frameCnt := s.frameCnt + 1, iterValid := false, iterRow := 0, iterCol := 0, cmdErr := .ok })
      ∧ (s.exhausted = false → 8 ≤ s.lw.toNat → 8 ≤ s.lh.toNat →
          exec .embFrame s = .next { s with
            frameCnt := s.frameCnt + 1, iterValid := true, iterRow := 0, iterCol := 0, busy := true, cmdErr := .ok })

/-- R216, R312: EMB_END of an embed run, partial, complete or already ended. -/
def Obligations.EmbEndEffect : Prop :=
  ∀ s : State, s.busy = false → s.mode = .embed →
    (s.run = .active → s.bitsDone.toNat < s.bitsReq.toNat →
      exec .embEnd s = .next { s with
        partialEmb := true, errExp := s.bitsReq, errObs := s.bitsDone, run := .done, cmdErr := .ok })
    ∧ (s.run = .active → s.bitsReq.toNat ≤ s.bitsDone.toNat → exec .embEnd s = .next { s with run := .done, cmdErr := .ok })
    ∧ (s.run ≠ .active → exec .embEnd s = .next { s with cmdErr := .ok })

/-- R194, R214: the memory an embed block step leaves. `g` is the transform of the 64 samples at rows row + i and columns col + j; the
samples written are those of the inverse transform of `g` with the one entry (LCROW, LCCOL) replaced by its encoding with the stream
bit at the cursor. Every other byte of FMEM and all of PMEM stay. -/
def Obligations.EmbedStepMemory : Prop :=
  ∀ (x : Transform) (s t : State) (g : Grid), s.busy = true → s.mode = .embed → s.iterCol.toNat + 8 ≤ s.lw.toNat →
    g = x.fwd (fun i j => s.fmemByte ((s.iterRow.toNat + i.val) * s.lw.toNat + (s.iterCol.toNat + j.val))) → coreTurn x s = .next t →
    (∀ i j, t.fmemByte ((s.iterRow.toNat + i.val) * s.lw.toNat + (s.iterCol.toNat + j.val))
        = toSample s.build (x.inv (fun r c =>
            if r = s.lcrow.toFin ∧ c = s.lccol.toFin then
              encodeWord s.build.roundTie (g s.lcrow.toFin s.lccol.toFin)
                (streamBit s.build s.pmemByte s.llen.toNat s.bitsDone.toNat) s.lq
            else g r c) i j))
      ∧ (∀ a, (∀ i j : Fin 8, a ≠ (s.iterRow.toNat + i.val) * s.lw.toNat + (s.iterCol.toNat + j.val)) → t.fmemByte a = s.fmemByte a)
      ∧ ∀ a, t.pmemByte a = s.pmemByte a

/-- R214, R215: the registers an embed block step leaves, on addresses inside the memories (log 12). -/
def Obligations.EmbedStepRegisters : Prop :=
  ∀ (x : Transform) (s : State), s.busy = true → s.mode = .embed →
    (s.iterRow.toNat + 7) * s.lw.toNat + (s.iterCol.toNat + 7) < 2 ^ 32 →
    (s.bitsDone.toNat - 8 * (s.build.ml + 4)) / 8 < 2 ^ 32 →
    ∃ t, coreTurn x s = .next t
      ∧ t = { s with
          fmem := t.fmem, bitsDone := s.bitsDone + 1, exhausted := t.exhausted, iterValid := t.iterValid, iterRow := t.iterRow,
          iterCol := t.iterCol, busy := t.busy }
      ∧ t.exhausted = (s.exhausted || decide (s.bitsDone + 1 = s.bitsReq))
      ∧ (t.iterValid, t.iterRow, t.iterCol) = iterStep s.lw s.lh s.iterRow s.iterCol
      ∧ t.busy = (!t.exhausted && t.iterValid)

/-- R212, R217, R355: from an accepted embed frame the Core alone ends it, in at most one step per block, having embedded
min(bits left, blocks of the frame) bits. -/
def Obligations.EmbedFrameEnds : Prop :=
  ∀ (x : Transform) (s t : State), s.Inv → s.busy = false → s.mode = .embed → s.run = .active → exec .embFrame s = .next t →
    ∃ k u, k ≤ (s.lh.toNat / 8) * (s.lw.toNat / 8) ∧ coreTurns x k t = .next u ∧ u.busy = false
      ∧ u.bitsDone.toNat = min s.bitsReq.toNat (s.bitsDone.toNat + (s.lh.toNat / 8) * (s.lw.toNat / 8))

/-! ### The extractor -/

/-- R240: EXT_START with a legal Q. -/
def Obligations.ExtStartEffect : Prop :=
  ∀ s : State, s.busy = false → legalStep s.q = true →
    exec .extStart s = .next { s with
      lq := s.q, lcrow := s.crow, lccol := s.ccol, lw := s.frameW, lh := s.frameH, llen := 0,
      mode := .extract, run := .active, bitsDone := 0, bitsReq := 0,
      hdrValid := false, exhausted := false, partialEmb := false, runErr := .ok,
      hdr := Vector.replicate 64 0, byteSr := 0, frameCnt := 0, errExp := 0, errObs := 0, cmdErr := .ok }

/-- R242: EXT_FRAME of an active extract run. -/
def Obligations.ExtFrameEffect : Prop :=
  ∀ s : State, s.busy = false → s.mode = .extract → s.run = .active →
    ((s.lw.toNat < 8 ∨ s.lh.toNat < 8) →
      exec .extFrame s = .next { s with frameCnt := s.frameCnt + 1, iterValid := false, iterRow := 0, iterCol := 0, cmdErr := .ok })
    ∧ (8 ≤ s.lw.toNat → 8 ≤ s.lh.toNat →
      exec .extFrame s = .next { s with
        frameCnt := s.frameCnt + 1, iterValid := true, iterRow := 0, iterCol := 0, busy := true, cmdErr := .ok })

/-- R248, R305: EXT_END of an extract run, still active or ended. -/
def Obligations.ExtEndEffect : Prop :=
  ∀ s : State, s.busy = false → s.mode = .extract →
    (s.run = .active → s.hdrValid = true →
      exec .extEnd s = .next { s with
        errExp := s.bitsReq, errObs := s.bitsDone, run := .failed, runErr := .streamTruncated, cmdErr := .streamTruncated })
    ∧ (s.run = .active → s.hdrValid = false →
      exec .extEnd s = .next { s with
        errExp := BitVec.ofNat 64 (8 * (s.build.ml + 4)), errObs := s.bitsDone, run := .failed, runErr := .streamTruncated,
        cmdErr := .streamTruncated })
    ∧ (s.run ≠ .active → exec .extEnd s = .next { s with cmdErr := .ok })

/-- R194, R243: what an extract block step appends and where. `bit` is Decode of the coefficient (LCROW, LCCOL) of the transform of the
64 samples at rows row + i and columns col + j, with the latched step; it shifts in at the low end of its header byte or of the byte
under assembly, which goes to PMEM with its eighth bit. No byte of FMEM changes, and no register but those that R243 to R247 write. -/
def Obligations.ExtractStepAppends : Prop :=
  ∀ (x : Transform) (s t : State) (bit : Bool), s.busy = true → s.mode = .extract →
    bit = qimDecode s.build.roundTie
      (x.fwd (fun i j => s.fmemByte ((s.iterRow.toNat + i.val) * s.lw.toNat + (s.iterCol.toNat + j.val)))
        s.lcrow.toFin s.lccol.toFin).toInt s.lq.toNat →
    coreTurn x s = .next t →
    t.bitsDone = s.bitsDone + 1
      ∧ (t.iterValid, t.iterRow, t.iterCol) = iterStep s.lw s.lh s.iterRow s.iterCol
      ∧ t = { s with
          bitsDone := t.bitsDone, iterValid := t.iterValid, iterRow := t.iterRow, iterCol := t.iterCol, hdr := t.hdr,
          byteSr := t.byteSr, pmem := t.pmem, busy := t.busy, run := t.run, runErr := t.runErr, cmdErr := t.cmdErr,
          errExp := t.errExp, errObs := t.errObs, bitsReq := t.bitsReq, hdrValid := t.hdrValid, resLen := t.resLen,
          resOff := t.resOff }
      ∧ (∀ a, t.fmemByte a = s.fmemByte a)
      ∧ (s.bitsDone.toNat < 8 * (s.build.ml + 4) →
          t.hdrByte (s.bitsDone.toNat / 8) = (s.hdrByte (s.bitsDone.toNat / 8) <<< 1) ||| (if bit then 1 else 0)
            ∧ (∀ k, k ≠ s.bitsDone.toNat / 8 → t.hdrByte k = s.hdrByte k)
            ∧ t.byteSr = s.byteSr ∧ ∀ a, t.pmemByte a = s.pmemByte a)
      ∧ (8 * (s.build.ml + 4) ≤ s.bitsDone.toNat →
          t.byteSr = (s.byteSr <<< 1) ||| (if bit then 1 else 0) ∧ (∀ k, t.hdrByte k = s.hdrByte k)
            ∧ (s.bitsDone.toNat % 8 = 7 →
                t.pmemByte ((s.bitsDone.toNat - 8 * (s.build.ml + 4)) / 8) = (s.byteSr <<< 1) ||| (if bit then 1 else 0)
                  ∧ ∀ a, a ≠ (s.bitsDone.toNat - 8 * (s.build.ml + 4)) / 8 → t.pmemByte a = s.pmemByte a)
            ∧ (s.bitsDone.toNat % 8 ≠ 7 → ∀ a, t.pmemByte a = s.pmemByte a))

/-- R244, R302(b), R306: the step that completes a header with a wrong marker ends the run, and writes nothing but the bit's own
fields (`ExtractStepAppends`), the failure, its counts and BUSY. -/
def Obligations.MarkerMismatchEndsRun : Prop :=
  ∀ (x : Transform) (s t : State), s.busy = true → s.mode = .extract → s.hdrValid = false →
    s.bitsDone.toNat + 1 = 8 * (s.build.ml + 4) → coreTurn x s = .next t →
    (∃ k, k < s.build.ml ∧ t.hdrByte k ≠ Build.markerByte s.build k) →
    t = { s with
      bitsDone := t.bitsDone, iterValid := t.iterValid, iterRow := t.iterRow, iterCol := t.iterCol, hdr := t.hdr,
      run := .failed, runErr := .markerMismatch, cmdErr := .markerMismatch, busy := false,
      errExp := BitVec.ofNat 64 (8 * s.build.ml), errObs := BitVec.ofNat 64 (markerMatchBits s.build t.hdrByte) }

/-- R244, R245, R246, R306: the step that completes a header with the right marker learns the length, and with L = 0 completes the run.
It writes nothing but the bit's own fields (`ExtractStepAppends`), BITS_REQ, HDR_VALID, BUSY and, with L = 0, the result: it raises
nothing and writes no counts. -/
def Obligations.HeaderSetsRequiredBits : Prop :=
  ∀ (x : Transform) (s t : State), s.busy = true → s.mode = .extract → s.hdrValid = false →
    s.bitsDone.toNat + 1 = 8 * (s.build.ml + 4) → coreTurn x s = .next t →
    (∀ k, k < s.build.ml → t.hdrByte k = Build.markerByte s.build k) →
    t.bitsReq.toNat = 8 * (s.build.ml + 4) + 8 * lengthField s.build t.hdrByte
      ∧ (lengthField s.build t.hdrByte = 0 →
          t = { s with
            bitsDone := t.bitsDone, iterValid := t.iterValid, iterRow := t.iterRow, iterCol := t.iterCol, hdr := t.hdr,
            bitsReq := t.bitsReq, hdrValid := true, run := .done, resLen := 0, resOff := 0, busy := false })
      ∧ (lengthField s.build t.hdrByte ≠ 0 →
          t = { s with
            bitsDone := t.bitsDone, iterValid := t.iterValid, iterRow := t.iterRow, iterCol := t.iterCol, hdr := t.hdr,
            bitsReq := t.bitsReq, hdrValid := true, busy := t.iterValid })

/-- R244, R245, R246, R247, R306: every extract block step but the one that completes the header. Past the header, the step that reaches
BITS_REQ completes the run; any other step, and every header bit but the last, only ends the frame when the iterator is exhausted. Beside
the bit's own fields (`ExtractStepAppends`) it writes nothing else: no marker check, no code, no counts, and BITS_REQ stays fixed. -/
def Obligations.ExtractCompletion : Prop :=
  ∀ (x : Transform) (s t : State), s.busy = true → s.mode = .extract → coreTurn x s = .next t →
    (s.hdrValid = true → s.bitsDone + 1 = s.bitsReq →
      t = { s with
        bitsDone := t.bitsDone, iterValid := t.iterValid, iterRow := t.iterRow, iterCol := t.iterCol, hdr := t.hdr,
        byteSr := t.byteSr, pmem := t.pmem, run := .done,
        resLen := BitVec.ofNat 32 ((s.bitsReq.toNat - 8 * (s.build.ml + 4)) / 8), resOff := 0, busy := false })
      ∧ ((s.hdrValid = true ∧ s.bitsDone + 1 ≠ s.bitsReq) ∨ (s.hdrValid = false ∧ s.bitsDone.toNat + 1 ≠ 8 * (s.build.ml + 4)) →
        t = { s with
          bitsDone := t.bitsDone, iterValid := t.iterValid, iterRow := t.iterRow, iterCol := t.iterCol, hdr := t.hdr,
          byteSr := t.byteSr, pmem := t.pmem, busy := t.iterValid })

/-- R249: when an extract run is DONE, Parse of its accumulator gives the payload. -/
def Obligations.FinalParseSucceeds : Prop :=
  ∀ s : State, s.Inv → s.mode = .extract → s.run = .done →
    parseFn s.build s.accumulated (s.bitsReq.toNat / 8) = .payload (s.build.ml + 4) ((s.bitsReq.toNat - headerBits s.build) / 8)
      ∧ ∀ i, s.accumulated (s.build.ml + 4 + i) = s.pmemByte i

/-- R242, R250, R355: from an accepted extract frame the Core alone ends it, in at most one step per block. -/
def Obligations.ExtractFrameEnds : Prop :=
  ∀ (x : Transform) (s t : State), s.Inv → s.busy = false → s.mode = .extract → s.run = .active → exec .extFrame s = .next t →
    ∃ k u, k ≤ (s.lh.toNat / 8) * (s.lw.toNat / 8) ∧ coreTurns x k t = .next u ∧ u.busy = false
      ∧ u.bitsDone.toNat = s.bitsDone.toNat + k
      ∧ (u.run = .active → k = (s.lh.toNat / 8) * (s.lw.toNat / 8))

/-! ### Frames: what the commands leave unchanged -/

/-- R270, R271, R173, R174: NOP, ABORT, QENC and QDEC. -/
def Obligations.CodecAndControlFrame : Prop :=
  ∀ s t : State,
    (exec .nop s = .next t → t = { s with cmdErr := t.cmdErr, overrun := t.overrun } ∧ sameMemory s t)
      ∧ (exec .abort s = .next t →
          t = { s with
            mode := t.mode, run := t.run, hdrValid := t.hdrValid, exhausted := t.exhausted, partialEmb := t.partialEmb,
            runErr := t.runErr, overrun := t.overrun, cmdErr := t.cmdErr } ∧ sameMemory s t)
      ∧ (∀ b, exec (.qenc b) s = .next t →
          t = { s with coefOut := t.coefOut, cmdErr := t.cmdErr, overrun := t.overrun } ∧ sameMemory s t)
      ∧ (exec .qdec s = .next t → t = { s with bitOut := t.bitOut, cmdErr := t.cmdErr, overrun := t.overrun } ∧ sameMemory s t)

/-- R195, R196, R135, R138: ITER_RESET, ITER_NEXT, SER_BIT and PARSE. -/
def Obligations.IteratorAndFramingFrame : Prop :=
  ∀ s t : State,
    (∀ i : Instr, i = .iterReset ∨ i = .iterNext → exec i s = .next t →
        t = { s with
          iterValid := t.iterValid, iterRow := t.iterRow, iterCol := t.iterCol, cmdErr := t.cmdErr, overrun := t.overrun }
          ∧ sameMemory s t)
      ∧ (exec .serBit s = .next t →
          t = { s with bitOut := t.bitOut, errExp := t.errExp, errObs := t.errObs, cmdErr := t.cmdErr, overrun := t.overrun }
            ∧ sameMemory s t)
      ∧ (exec .parse s = .next t →
          t = { s with
            resOff := t.resOff, resLen := t.resLen, errExp := t.errExp, errObs := t.errObs, cmdErr := t.cmdErr,
            overrun := t.overrun } ∧ sameMemory s t)

/-- R211, R212, R216, R240, R242, R248: the START, frame and END commands. -/
def Obligations.RunCommandsFrame : Prop :=
  ∀ s t : State,
    (exec .embStart s = .next t →
        t = { s with
          lq := t.lq, lcrow := t.lcrow, lccol := t.lccol, lw := t.lw, lh := t.lh, llen := t.llen, mode := t.mode, run := t.run,
          bitsDone := t.bitsDone, bitsReq := t.bitsReq, exhausted := t.exhausted, partialEmb := t.partialEmb,
          hdrValid := t.hdrValid, runErr := t.runErr, frameCnt := t.frameCnt, errExp := t.errExp, errObs := t.errObs,
          cmdErr := t.cmdErr, overrun := t.overrun } ∧ sameMemory s t)
      ∧ (exec .extStart s = .next t →
        t = { s with
          lq := t.lq, lcrow := t.lcrow, lccol := t.lccol, lw := t.lw, lh := t.lh, llen := t.llen, mode := t.mode, run := t.run,
          bitsDone := t.bitsDone, bitsReq := t.bitsReq, exhausted := t.exhausted, partialEmb := t.partialEmb,
          hdrValid := t.hdrValid, runErr := t.runErr, hdr := t.hdr, byteSr := t.byteSr, frameCnt := t.frameCnt,
          errExp := t.errExp, errObs := t.errObs, cmdErr := t.cmdErr, overrun := t.overrun } ∧ sameMemory s t)
      ∧ (∀ i : Instr, i = .embFrame ∨ i = .extFrame → exec i s = .next t →
        t = { s with
          frameCnt := t.frameCnt, iterValid := t.iterValid, iterRow := t.iterRow, iterCol := t.iterCol, busy := t.busy,
          cmdErr := t.cmdErr, overrun := t.overrun } ∧ sameMemory s t)
      ∧ (exec .embEnd s = .next t →
        t = { s with
          partialEmb := t.partialEmb, run := t.run, errExp := t.errExp, errObs := t.errObs, cmdErr := t.cmdErr,
          overrun := t.overrun } ∧ sameMemory s t)
      ∧ (exec .extEnd s = .next t →
        t = { s with
          run := t.run, runErr := t.runErr, errExp := t.errExp, errObs := t.errObs, cmdErr := t.cmdErr, overrun := t.overrun }
          ∧ sameMemory s t)

/-! ### The Host's transactions -/

/-- R25, R27, R28, R301: the word a read of STATUS answers, bit by bit, with the codes of MODE, RUN and the two outcome fields. -/
def Obligations.StatusLayout : Prop :=
  ∀ (s : State) (outcomes : List (Code × BitVec 4)),
    outcomes = [(.ok, 0), (.markerMismatch, 1), (.incompleteHeader, 2), (.truncatedPayload, 3), (.streamTruncated, 4),
      (.illegalCommand, 5), (.sequence, 6), (.badConfig, 7), (.indexRange, 8)] →
    regRead 0x004 32 s = .next { s with rdData := s.statusWord }
      ∧ s.statusWord.getLsbD 0 = s.busy
      ∧ (s.mode, s.statusWord.extractLsb' 1 2) ∈ ([(.none, 0), (.embed, 1), (.extract, 2)] : List (Mode × BitVec 2))
      ∧ (s.run, s.statusWord.extractLsb' 3 2) ∈ ([(.idle, 0), (.active, 1), (.done, 2), (.failed, 3)] : List (Run × BitVec 2))
      ∧ s.statusWord.getLsbD 5 = s.hdrValid ∧ s.statusWord.getLsbD 6 = s.exhausted ∧ s.statusWord.getLsbD 7 = s.partialEmb
      ∧ (s.cmdErr, s.statusWord.extractLsb' 8 4) ∈ outcomes ∧ (s.runErr, s.statusWord.extractLsb' 12 4) ∈ outcomes
      ∧ s.statusWord.getLsbD 16 = s.iterValid ∧ s.statusWord.getLsbD 17 = s.overrun ∧ s.statusWord.extractLsb' 18 14 = 0

/-- R37..R45, R272: a write of a read-write register and the read after it: the bits that are not reserved are those written, and
the write changes nothing but the fields of that register; a write to any other aligned offset but CMD is ignored. A write event of the
model's list (log 1) is such a write. -/
def Obligations.RegisterWrites : Prop :=
  (∀ (s : State) (v : Word),
    regWrite 0x008 32 v s = .next { s with q := v }
      ∧ (∃ t, regWrite 0x00C 32 v s = .next t ∧ t = { s with crow := t.crow, ccol := t.ccol }
          ∧ t.readOffset 0x00C = (v &&& 0x00000707))
      ∧ (∃ t, regWrite 0x010 32 v s = .next t ∧ t = { s with frameW := t.frameW } ∧ t.readOffset 0x010 = (v &&& 0x0000FFFF))
      ∧ (∃ t, regWrite 0x014 32 v s = .next t ∧ t = { s with frameH := t.frameH } ∧ t.readOffset 0x014 = (v &&& 0x0000FFFF))
      ∧ regWrite 0x018 32 v s = .next { s with payLen := v }
      ∧ regWrite 0x01C 32 v s = .next { s with parseLen := v }
      ∧ regWrite 0x020 32 v s = .next { s with coefIn := v }
      ∧ (∃ t, regWrite 0x028 32 v s = .next t ∧ t = { s with idx := t.idx } ∧ t.readOffset 0x028 = v
          ∧ t.readOffset 0x02C = s.readOffset 0x02C)
      ∧ (∃ t, regWrite 0x02C 32 v s = .next t ∧ t = { s with idx := t.idx } ∧ t.readOffset 0x02C = v
          ∧ t.readOffset 0x028 = s.readOffset 0x028))
    ∧ (∀ (off : BitVec 12) (v : Word) (s : State), off.toNat % 4 = 0 →
        off ∉ ([0x000, 0x008, 0x00C, 0x010, 0x014, 0x018, 0x01C, 0x020, 0x028, 0x02C] : List (BitVec 12)) →
        regWrite off 32 v s = .next s)
    ∧ (∀ (v : Word) (s : State), regWrite 0x000 32 v s = cmdWrite v s)
    ∧ ∀ (off : BitVec 12) (width : Nat) (v : Word) (s : State) (rest : List Event),
        s.inputs = .regWrite off width v :: rest → step s = regWrite off width v { s with inputs := rest }

/-- R23, R37..R57, R273: a read of each register answers that register's value, reserved bits 0, and of an offset no rule defines, or
CMD, 0; it has no side effect but its answer, which stands in the model's field `rdData` (log 10). STATUS is `StatusLayout`'s. A read
event of the model's list (log 1) is such a read. -/
def Obligations.ReadsHaveNoSideEffect : Prop :=
  (∀ (off : BitVec 12) (s : State), off.toNat % 4 = 0 →
    (∃ t, regRead off 32 s = .next t ∧ t = { s with rdData := t.rdData } ∧ sameMemory s t)
      ∧ ((off = 0x000 ∨ (0x068 ≤ off.toNat ∧ off.toNat < 0x100) ∨ 0x300 ≤ off.toNat) →
          regRead off 32 s = .next { s with rdData := 0 }))
    ∧ (∀ s : State,
        regRead 0x004 32 s = .next { s with rdData := s.statusWord }
        ∧ regRead 0x008 32 s = .next { s with rdData := s.q }
        ∧ regRead 0x00C 32 s = .next { s with rdData := (0 : BitVec 21) ++ s.ccol ++ (0 : BitVec 5) ++ s.crow }
        ∧ regRead 0x010 32 s = .next { s with rdData := s.frameW.zeroExtend 32 }
        ∧ regRead 0x014 32 s = .next { s with rdData := s.frameH.zeroExtend 32 }
        ∧ regRead 0x018 32 s = .next { s with rdData := s.payLen }
        ∧ regRead 0x01C 32 s = .next { s with rdData := s.parseLen }
        ∧ regRead 0x020 32 s = .next { s with rdData := s.coefIn }
        ∧ regRead 0x024 32 s = .next { s with rdData := s.coefOut }
        ∧ regRead 0x028 32 s = .next { s with rdData := s.idx.extractLsb' 0 32 }
        ∧ regRead 0x02C 32 s = .next { s with rdData := s.idx.extractLsb' 32 32 }
        ∧ regRead 0x030 32 s = .next { s with rdData := if s.bitOut then 1 else 0 }
        ∧ regRead 0x034 32 s = .next { s with rdData := s.resLen }
        ∧ regRead 0x038 32 s = .next { s with rdData := s.resOff }
        ∧ regRead 0x03C 32 s = .next { s with rdData := s.frameCnt }
        ∧ regRead 0x040 32 s = .next { s with rdData := s.bitsDone.extractLsb' 0 32 }
        ∧ regRead 0x044 32 s = .next { s with rdData := s.bitsDone.extractLsb' 32 32 }
        ∧ regRead 0x048 32 s = .next { s with rdData := s.bitsReq.extractLsb' 0 32 }
        ∧ regRead 0x04C 32 s = .next { s with rdData := s.bitsReq.extractLsb' 32 32 }
        ∧ regRead 0x050 32 s = .next { s with rdData := s.errExp.extractLsb' 0 32 }
        ∧ regRead 0x054 32 s = .next { s with rdData := s.errExp.extractLsb' 32 32 }
        ∧ regRead 0x058 32 s = .next { s with rdData := s.errObs.extractLsb' 0 32 }
        ∧ regRead 0x05C 32 s = .next { s with rdData := s.errObs.extractLsb' 32 32 }
        ∧ regRead 0x060 32 s = .next { s with rdData := s.iterCol ++ s.iterRow })
    ∧ (∀ (s : State) (tie : BitVec 2),
        (s.build.roundTie, tie) ∈ ([(.halfEven, 0), (.halfAway, 1), (.halfUp, 2)] : List (RoundTie × BitVec 2)) →
        regRead 0x064 32 s
          = .next { s with rdData := (0 : BitVec 14) ++ tie ++ BitVec.ofNat 8 s.build.frac.val ++ BitVec.ofNat 8 s.build.ml })
    ∧ (∀ (s : State) (k : Nat), k < 64 →
        (s.hdrByte k = (s.hdr[k]?).getD 0
          ∧ regRead (BitVec.ofNat 12 (0x100 + 4 * k)) 32 s
            = .next { s with rdData := if k < s.build.ml + 4 then (s.hdrByte k).zeroExtend 32 else 0 })
        ∧ (k < s.build.ml → Build.markerByte s.build k = (s.build.marker[k]?).getD 0)
        ∧ regRead (BitVec.ofNat 12 (0x200 + 4 * k)) 32 s
            = .next { s with rdData := if k < s.build.ml then (Build.markerByte s.build k).zeroExtend 32 else 0 })
    ∧ ∀ (off : BitVec 12) (width : Nat) (s : State) (rest : List Event),
        s.inputs = .regRead off width :: rest → step s = regRead off width { s with inputs := rest }

/-- R23, R76, R321: a misaligned or partial-width register access is refused by the model (log 9), and nothing else is: a step that
refuses takes such an access from the model's list of events (log 1). -/
def Obligations.BadAccessRefused : Prop :=
  (∀ (off : BitVec 12) (width : Nat) (v : Word) (s : State), (off.toNat % 4 ≠ 0 ∨ width ≠ 32) →
    regWrite off width v s = .refused .registerAccess ∧ regRead off width s = .refused .registerAccess)
    ∧ ∀ (s : State) (r : Refusal), step s = .refused r → r = .registerAccess
        ∧ ∃ (off : BitVec 12) (width : Nat) (rest : List Event), (off.toNat % 4 ≠ 0 ∨ width ≠ 32)
            ∧ (s.inputs = .regRead off width :: rest ∨ ∃ v, s.inputs = .regWrite off width v :: rest)

/-- R83, R85, R321: the Host's memory accesses that the contract leaves without a move, and only those. Such an access does not happen:
the event stays in the model's list (log 1), and only the Core may have its turn (log 8). Any other one happens: a write stores its
byte, and a read answers the byte in the model's field `rdData` (log 10). -/
def Obligations.HostContract : Prop :=
  ∀ (x : Transform) (s : State) (a : Word) (v : Byte) (rest : List Event),
    (s.inputs = .fmemWrite a v :: rest →
      machineStep x s = if s.busy = true ∧ a.toNat < s.lw.toNat * s.lh.toNat then coreTurn x s
        else .next { s with inputs := rest, fmem := Memory.write s.fmem a.toNat v })
    ∧ (s.inputs = .fmemRead a :: rest →
      machineStep x s = if s.busy = true ∧ a.toNat < s.lw.toNat * s.lh.toNat then coreTurn x s
        else .next { s with inputs := rest, rdData := (s.fmemByte a.toNat).zeroExtend 32 })
    ∧ (s.inputs = .pmemWrite a v :: rest →
      machineStep x s =
        if (s.busy = true ∧ s.mode = .extract)
            ∨ (s.mode = .embed ∧ (s.busy = true ∨ s.run = .active) ∧ a.toNat < s.llen.toNat) then coreTurn x s
        else .next { s with inputs := rest, pmem := Memory.write s.pmem a.toNat v })
    ∧ (s.inputs = .pmemRead a :: rest →
      machineStep x s = if s.busy = true ∧ s.mode = .extract then coreTurn x s
        else .next { s with inputs := rest, rdData := (s.pmemByte a.toNat).zeroExtend 32 })

/-- R79: over two steps, the Host reads back the byte it wrote, and every other byte as before. The two accesses are the first events
of the model's list (log 1), and the answer of the read stands in the model's field `rdData` (log 10). -/
def Obligations.MemoryReadAfterWrite : Prop :=
  ∀ (x : Transform) (s : State) (a b : Word) (v : Byte) (rest : List Event), s.busy = false →
    (s.inputs = .fmemWrite a v :: .fmemRead b :: rest →
      ∃ t u, machineStep x s = .next t ∧ machineStep x t = .next u ∧ u.inputs = rest
        ∧ u.rdData = (if b = a then v else s.fmemByte b.toNat).zeroExtend 32)
      ∧ (s.inputs = .pmemWrite a v :: .pmemRead b :: rest → (s.mode = .embed → s.run = .active → s.llen.toNat ≤ a.toNat) →
          ∃ t u, machineStep x s = .next t ∧ machineStep x t = .next u ∧ u.inputs = rest
            ∧ u.rdData = (if b = a then v else s.pmemByte b.toNat).zeroExtend 32)

/-- R121, R275, R327: the Core is enabled exactly while BUSY = 1, and MODE chooses its step. It has its turn where the model's list of
events is empty, at a turn that the list names (log 1), and while the Host waits on BUSY, after which the wait is one read of STATUS
(log 11). -/
def Obligations.CoreEnablement : Prop :=
  ∀ (x : Transform) (s : State) (rest : List Event),
    (s.busy = false → coreTurn x s = .next s)
      ∧ (s.busy = true → s.mode = .embed → coreTurn x s = embedBlock x s)
      ∧ (s.busy = true → s.mode = .extract → coreTurn x s = extractBlock x s)
      ∧ (s.inputs = [] → machineStep x s = coreTurn x s)
      ∧ (s.inputs = .coreTurn :: rest → machineStep x s = coreTurn x { s with inputs := rest })
      ∧ (s.inputs = .wait :: rest → s.busy = true → machineStep x s = coreTurn x s)
      ∧ (s.inputs = .wait :: rest → s.busy = false → machineStep x s = .next { s with inputs := rest, rdData := s.statusWord })

/-- R58, R272, R351: a block step neither reads nor writes a live register: with other live values it does the same. -/
def Obligations.BlockStepsReadLatchesOnly : Prop :=
  ∀ (x : Transform) (s : State) (l : LiveRegs), coreTurn x (s.withLive l) = mapNext (fun t => t.withLive l) (coreTurn x s)

/-! ### Reset -/

/-- R60, R341, R343: every register after a Reset; the constants of the build stay, and a Reset of an idle block touches no memory.
A Reset event of the model's list (log 1) is that Reset. -/
def Obligations.ResetValues : Prop :=
  (∀ s t : State, resetEvent s = .next t →
    t.statusWord = 0 ∧ t.q = BitVec.ofNat 32 (4 * 2 ^ s.build.frac.val) ∧ t.coefPosWord = 0x00000102
      ∧ t.frameW = 0 ∧ t.frameH = 0 ∧ t.payLen = 0 ∧ t.parseLen = 0 ∧ t.coefIn = 0 ∧ t.coefOut = 0 ∧ t.idx = 0 ∧ t.bitOut = false
      ∧ t.resLen = 0 ∧ t.resOff = 0 ∧ t.frameCnt = 0 ∧ t.bitsDone = 0 ∧ t.bitsReq = 0 ∧ t.errExp = 0 ∧ t.errObs = 0
      ∧ t.iterPosWord = 0 ∧ (∀ k, t.hdrByte k = 0)
      ∧ t.lq = BitVec.ofNat 32 (4 * 2 ^ s.build.frac.val) ∧ t.lcrow = 2 ∧ t.lccol = 1 ∧ t.lw = 0 ∧ t.lh = 0 ∧ t.llen = 0
      ∧ t.byteSr = 0 ∧ t.readReg .param = s.readReg .param ∧ ∀ k, t.readReg (.marker k) = s.readReg (.marker k))
    ∧ (∀ s : State, s.busy = false → ∃ t, resetEvent s = .next t ∧ sameMemory s t)
    ∧ ∀ (s : State) (rest : List Event), s.inputs = .reset :: rest → step s = resetEvent { s with inputs := rest }

/-- R342: Reset while BUSY = 1 loses the run and touches only the block under write-back, or the byte under assembly. -/
def Obligations.ResetInFlight : Prop :=
  ∀ s t : State, s.busy = true → resetEvent s = .next t →
    t.busy = false ∧ t.mode = .none ∧ t.run = .idle
      ∧ (∀ a, (s.mode = .embed → ∀ i j : Fin 8, a ≠ (s.iterRow.toNat + i.val) * s.lw.toNat + (s.iterCol.toNat + j.val)) →
          t.fmemByte a = s.fmemByte a)
      ∧ ∀ a, (s.mode = .extract → 8 * (s.build.ml + 4) ≤ s.bitsDone.toNat → a ≠ (s.bitsDone.toNat - 8 * (s.build.ml + 4)) / 8) →
          t.pmemByte a = s.pmemByte a

/-! ### Invariants of every step -/

/-- R7, R60, R36: the state after power-on meets the invariant in every legal build, and so does the state after reset of the model's
build (log 3, log 4). -/
def Obligations.ResetMeetsInvariant : Prop :=
  (∀ b : Build, (State.powerOn b).Inv) ∧ State.reset.Inv

/-- R36: the relations between the fields of STATUS are kept by every step, from every state that has them. -/
def Obligations.StatusRelationsKept : Prop :=
  ∀ s t : State, s.StatusInv → step s = .next t → t.StatusInv

/-- R30, R36, R50, R51, R71, R72: the whole invariant is kept by every step. -/
def Obligations.StepKeepsInvariant : Prop :=
  ∀ s t : State, s.Inv → step s = .next t → t.Inv

/-- R71, R72, R81: from a state that meets the invariant no step faults: no address leaves its memory, and an enabled Core always
has a block step. The faults are the model's (log 12, 13). -/
def Obligations.InvariantExcludesFaults : Prop :=
  ∀ (s : State) (r : Fault), s.Inv → step s ≠ .fault r

/-- 20_memory.md R70: the canonical form of both memories, which is the model's choice (log 6), is kept by every step, from every
state. -/
def Obligations.StepKeepsMemoryForm : Prop :=
  ∀ s t : State, Memory.wf s.fmem → Memory.wf s.pmem → step s = .next t → Memory.wf t.fmem ∧ Memory.wf t.pmem

/-- R55, R57: no step changes the build's constants, which the model keeps in the state (log 3), so PARAM and the MARKER window
always read the same. -/
def Obligations.BuildIsConstant : Prop :=
  ∀ s t : State, step s = .next t →
    t.build = s.build ∧ t.readReg .param = s.readReg .param ∧ ∀ k, t.readReg (.marker k) = s.readReg (.marker k)

/-- R58: a step that changes the latched configuration is an EMB_START, an EXT_START or a Reset, the event it takes from the model's
list (log 1). -/
def Obligations.LatchesWrittenByStartOnly : Prop :=
  ∀ s t : State, step s = .next t →
    ¬(t.lq = s.lq ∧ t.lcrow = s.lcrow ∧ t.lccol = s.lccol ∧ t.lw = s.lw ∧ t.lh = s.lh ∧ t.llen = s.llen) →
    ∃ rest, s.inputs = .reset :: rest ∨ s.inputs = .regWrite 0x000 32 0x00000020 :: rest
      ∨ s.inputs = .regWrite 0x000 32 0x00000030 :: rest

/-- R35: OVERRUN is sticky: a step that clears it is an ABORT or a Reset, the event it takes from the model's list (log 1). -/
def Obligations.OverrunSticky : Prop :=
  ∀ s t : State, s.overrun = true → step s = .next t → t.overrun = false →
    ∃ rest, s.inputs = .reset :: rest ∨ s.inputs = .regWrite 0x000 32 0x0000003F :: rest
end

