-- ==== Sys2Proof/Laws/State.lean ====
section
/-! SUPPORT. What each shared update of the state does to each field: one lemma per field per update, so that no proof unfolds a
record update. -/

namespace Sys2Proof.Machine

/-! ### setFmem -/

@[simp] theorem State.setFmem_build (s : State) (a : Nat) (v : Byte) : (s.setFmem a v).build = s.build := rfl
@[simp] theorem State.setFmem_busy (s : State) (a : Nat) (v : Byte) : (s.setFmem a v).busy = s.busy := rfl
@[simp] theorem State.setFmem_mode (s : State) (a : Nat) (v : Byte) : (s.setFmem a v).mode = s.mode := rfl
@[simp] theorem State.setFmem_run (s : State) (a : Nat) (v : Byte) : (s.setFmem a v).run = s.run := rfl
@[simp] theorem State.setFmem_hdrValid (s : State) (a : Nat) (v : Byte) : (s.setFmem a v).hdrValid = s.hdrValid := rfl
@[simp] theorem State.setFmem_exhausted (s : State) (a : Nat) (v : Byte) : (s.setFmem a v).exhausted = s.exhausted := rfl
@[simp] theorem State.setFmem_partialEmb (s : State) (a : Nat) (v : Byte) : (s.setFmem a v).partialEmb = s.partialEmb := rfl
@[simp] theorem State.setFmem_cmdErr (s : State) (a : Nat) (v : Byte) : (s.setFmem a v).cmdErr = s.cmdErr := rfl
@[simp] theorem State.setFmem_runErr (s : State) (a : Nat) (v : Byte) : (s.setFmem a v).runErr = s.runErr := rfl
@[simp] theorem State.setFmem_iterValid (s : State) (a : Nat) (v : Byte) : (s.setFmem a v).iterValid = s.iterValid := rfl
@[simp] theorem State.setFmem_overrun (s : State) (a : Nat) (v : Byte) : (s.setFmem a v).overrun = s.overrun := rfl
@[simp] theorem State.setFmem_q (s : State) (a : Nat) (v : Byte) : (s.setFmem a v).q = s.q := rfl
@[simp] theorem State.setFmem_crow (s : State) (a : Nat) (v : Byte) : (s.setFmem a v).crow = s.crow := rfl
@[simp] theorem State.setFmem_ccol (s : State) (a : Nat) (v : Byte) : (s.setFmem a v).ccol = s.ccol := rfl
@[simp] theorem State.setFmem_frameW (s : State) (a : Nat) (v : Byte) : (s.setFmem a v).frameW = s.frameW := rfl
@[simp] theorem State.setFmem_frameH (s : State) (a : Nat) (v : Byte) : (s.setFmem a v).frameH = s.frameH := rfl
@[simp] theorem State.setFmem_payLen (s : State) (a : Nat) (v : Byte) : (s.setFmem a v).payLen = s.payLen := rfl
@[simp] theorem State.setFmem_parseLen (s : State) (a : Nat) (v : Byte) : (s.setFmem a v).parseLen = s.parseLen := rfl
@[simp] theorem State.setFmem_coefIn (s : State) (a : Nat) (v : Byte) : (s.setFmem a v).coefIn = s.coefIn := rfl
@[simp] theorem State.setFmem_coefOut (s : State) (a : Nat) (v : Byte) : (s.setFmem a v).coefOut = s.coefOut := rfl
@[simp] theorem State.setFmem_idx (s : State) (a : Nat) (v : Byte) : (s.setFmem a v).idx = s.idx := rfl
@[simp] theorem State.setFmem_bitOut (s : State) (a : Nat) (v : Byte) : (s.setFmem a v).bitOut = s.bitOut := rfl
@[simp] theorem State.setFmem_resLen (s : State) (a : Nat) (v : Byte) : (s.setFmem a v).resLen = s.resLen := rfl
@[simp] theorem State.setFmem_resOff (s : State) (a : Nat) (v : Byte) : (s.setFmem a v).resOff = s.resOff := rfl
@[simp] theorem State.setFmem_frameCnt (s : State) (a : Nat) (v : Byte) : (s.setFmem a v).frameCnt = s.frameCnt := rfl
@[simp] theorem State.setFmem_bitsDone (s : State) (a : Nat) (v : Byte) : (s.setFmem a v).bitsDone = s.bitsDone := rfl
@[simp] theorem State.setFmem_bitsReq (s : State) (a : Nat) (v : Byte) : (s.setFmem a v).bitsReq = s.bitsReq := rfl
@[simp] theorem State.setFmem_errExp (s : State) (a : Nat) (v : Byte) : (s.setFmem a v).errExp = s.errExp := rfl
@[simp] theorem State.setFmem_errObs (s : State) (a : Nat) (v : Byte) : (s.setFmem a v).errObs = s.errObs := rfl
@[simp] theorem State.setFmem_iterRow (s : State) (a : Nat) (v : Byte) : (s.setFmem a v).iterRow = s.iterRow := rfl
@[simp] theorem State.setFmem_iterCol (s : State) (a : Nat) (v : Byte) : (s.setFmem a v).iterCol = s.iterCol := rfl
@[simp] theorem State.setFmem_hdr (s : State) (a : Nat) (v : Byte) : (s.setFmem a v).hdr = s.hdr := rfl
@[simp] theorem State.setFmem_lq (s : State) (a : Nat) (v : Byte) : (s.setFmem a v).lq = s.lq := rfl
@[simp] theorem State.setFmem_lcrow (s : State) (a : Nat) (v : Byte) : (s.setFmem a v).lcrow = s.lcrow := rfl
@[simp] theorem State.setFmem_lccol (s : State) (a : Nat) (v : Byte) : (s.setFmem a v).lccol = s.lccol := rfl
@[simp] theorem State.setFmem_lw (s : State) (a : Nat) (v : Byte) : (s.setFmem a v).lw = s.lw := rfl
@[simp] theorem State.setFmem_lh (s : State) (a : Nat) (v : Byte) : (s.setFmem a v).lh = s.lh := rfl
@[simp] theorem State.setFmem_llen (s : State) (a : Nat) (v : Byte) : (s.setFmem a v).llen = s.llen := rfl
@[simp] theorem State.setFmem_byteSr (s : State) (a : Nat) (v : Byte) : (s.setFmem a v).byteSr = s.byteSr := rfl
@[simp] theorem State.setFmem_fmem (s : State) (a : Nat) (v : Byte) : (s.setFmem a v).fmem = Memory.write s.fmem a v := rfl
@[simp] theorem State.setFmem_pmem (s : State) (a : Nat) (v : Byte) : (s.setFmem a v).pmem = s.pmem := rfl
@[simp] theorem State.setFmem_inputs (s : State) (a : Nat) (v : Byte) : (s.setFmem a v).inputs = s.inputs := rfl
@[simp] theorem State.setFmem_rdData (s : State) (a : Nat) (v : Byte) : (s.setFmem a v).rdData = s.rdData := rfl
@[simp] theorem State.setFmem_draws (s : State) (a : Nat) (v : Byte) : (s.setFmem a v).draws = s.draws := rfl

/-! ### setPmem -/

@[simp] theorem State.setPmem_build (s : State) (a : Nat) (v : Byte) : (s.setPmem a v).build = s.build := rfl
@[simp] theorem State.setPmem_busy (s : State) (a : Nat) (v : Byte) : (s.setPmem a v).busy = s.busy := rfl
@[simp] theorem State.setPmem_mode (s : State) (a : Nat) (v : Byte) : (s.setPmem a v).mode = s.mode := rfl
@[simp] theorem State.setPmem_run (s : State) (a : Nat) (v : Byte) : (s.setPmem a v).run = s.run := rfl
@[simp] theorem State.setPmem_hdrValid (s : State) (a : Nat) (v : Byte) : (s.setPmem a v).hdrValid = s.hdrValid := rfl
@[simp] theorem State.setPmem_exhausted (s : State) (a : Nat) (v : Byte) : (s.setPmem a v).exhausted = s.exhausted := rfl
@[simp] theorem State.setPmem_partialEmb (s : State) (a : Nat) (v : Byte) : (s.setPmem a v).partialEmb = s.partialEmb := rfl
@[simp] theorem State.setPmem_cmdErr (s : State) (a : Nat) (v : Byte) : (s.setPmem a v).cmdErr = s.cmdErr := rfl
@[simp] theorem State.setPmem_runErr (s : State) (a : Nat) (v : Byte) : (s.setPmem a v).runErr = s.runErr := rfl
@[simp] theorem State.setPmem_iterValid (s : State) (a : Nat) (v : Byte) : (s.setPmem a v).iterValid = s.iterValid := rfl
@[simp] theorem State.setPmem_overrun (s : State) (a : Nat) (v : Byte) : (s.setPmem a v).overrun = s.overrun := rfl
@[simp] theorem State.setPmem_q (s : State) (a : Nat) (v : Byte) : (s.setPmem a v).q = s.q := rfl
@[simp] theorem State.setPmem_crow (s : State) (a : Nat) (v : Byte) : (s.setPmem a v).crow = s.crow := rfl
@[simp] theorem State.setPmem_ccol (s : State) (a : Nat) (v : Byte) : (s.setPmem a v).ccol = s.ccol := rfl
@[simp] theorem State.setPmem_frameW (s : State) (a : Nat) (v : Byte) : (s.setPmem a v).frameW = s.frameW := rfl
@[simp] theorem State.setPmem_frameH (s : State) (a : Nat) (v : Byte) : (s.setPmem a v).frameH = s.frameH := rfl
@[simp] theorem State.setPmem_payLen (s : State) (a : Nat) (v : Byte) : (s.setPmem a v).payLen = s.payLen := rfl
@[simp] theorem State.setPmem_parseLen (s : State) (a : Nat) (v : Byte) : (s.setPmem a v).parseLen = s.parseLen := rfl
@[simp] theorem State.setPmem_coefIn (s : State) (a : Nat) (v : Byte) : (s.setPmem a v).coefIn = s.coefIn := rfl
@[simp] theorem State.setPmem_coefOut (s : State) (a : Nat) (v : Byte) : (s.setPmem a v).coefOut = s.coefOut := rfl
@[simp] theorem State.setPmem_idx (s : State) (a : Nat) (v : Byte) : (s.setPmem a v).idx = s.idx := rfl
@[simp] theorem State.setPmem_bitOut (s : State) (a : Nat) (v : Byte) : (s.setPmem a v).bitOut = s.bitOut := rfl
@[simp] theorem State.setPmem_resLen (s : State) (a : Nat) (v : Byte) : (s.setPmem a v).resLen = s.resLen := rfl
@[simp] theorem State.setPmem_resOff (s : State) (a : Nat) (v : Byte) : (s.setPmem a v).resOff = s.resOff := rfl
@[simp] theorem State.setPmem_frameCnt (s : State) (a : Nat) (v : Byte) : (s.setPmem a v).frameCnt = s.frameCnt := rfl
@[simp] theorem State.setPmem_bitsDone (s : State) (a : Nat) (v : Byte) : (s.setPmem a v).bitsDone = s.bitsDone := rfl
@[simp] theorem State.setPmem_bitsReq (s : State) (a : Nat) (v : Byte) : (s.setPmem a v).bitsReq = s.bitsReq := rfl
@[simp] theorem State.setPmem_errExp (s : State) (a : Nat) (v : Byte) : (s.setPmem a v).errExp = s.errExp := rfl
@[simp] theorem State.setPmem_errObs (s : State) (a : Nat) (v : Byte) : (s.setPmem a v).errObs = s.errObs := rfl
@[simp] theorem State.setPmem_iterRow (s : State) (a : Nat) (v : Byte) : (s.setPmem a v).iterRow = s.iterRow := rfl
@[simp] theorem State.setPmem_iterCol (s : State) (a : Nat) (v : Byte) : (s.setPmem a v).iterCol = s.iterCol := rfl
@[simp] theorem State.setPmem_hdr (s : State) (a : Nat) (v : Byte) : (s.setPmem a v).hdr = s.hdr := rfl
@[simp] theorem State.setPmem_lq (s : State) (a : Nat) (v : Byte) : (s.setPmem a v).lq = s.lq := rfl
@[simp] theorem State.setPmem_lcrow (s : State) (a : Nat) (v : Byte) : (s.setPmem a v).lcrow = s.lcrow := rfl
@[simp] theorem State.setPmem_lccol (s : State) (a : Nat) (v : Byte) : (s.setPmem a v).lccol = s.lccol := rfl
@[simp] theorem State.setPmem_lw (s : State) (a : Nat) (v : Byte) : (s.setPmem a v).lw = s.lw := rfl
@[simp] theorem State.setPmem_lh (s : State) (a : Nat) (v : Byte) : (s.setPmem a v).lh = s.lh := rfl
@[simp] theorem State.setPmem_llen (s : State) (a : Nat) (v : Byte) : (s.setPmem a v).llen = s.llen := rfl
@[simp] theorem State.setPmem_byteSr (s : State) (a : Nat) (v : Byte) : (s.setPmem a v).byteSr = s.byteSr := rfl
@[simp] theorem State.setPmem_fmem (s : State) (a : Nat) (v : Byte) : (s.setPmem a v).fmem = s.fmem := rfl
@[simp] theorem State.setPmem_pmem (s : State) (a : Nat) (v : Byte) : (s.setPmem a v).pmem = Memory.write s.pmem a v := rfl
@[simp] theorem State.setPmem_inputs (s : State) (a : Nat) (v : Byte) : (s.setPmem a v).inputs = s.inputs := rfl
@[simp] theorem State.setPmem_rdData (s : State) (a : Nat) (v : Byte) : (s.setPmem a v).rdData = s.rdData := rfl
@[simp] theorem State.setPmem_draws (s : State) (a : Nat) (v : Byte) : (s.setPmem a v).draws = s.draws := rfl

/-! ### setCmdErr -/

@[simp] theorem State.setCmdErr_build (s : State) (c : Code) : (s.setCmdErr c).build = s.build := rfl
@[simp] theorem State.setCmdErr_busy (s : State) (c : Code) : (s.setCmdErr c).busy = s.busy := rfl
@[simp] theorem State.setCmdErr_mode (s : State) (c : Code) : (s.setCmdErr c).mode = s.mode := rfl
@[simp] theorem State.setCmdErr_run (s : State) (c : Code) : (s.setCmdErr c).run = s.run := rfl
@[simp] theorem State.setCmdErr_hdrValid (s : State) (c : Code) : (s.setCmdErr c).hdrValid = s.hdrValid := rfl
@[simp] theorem State.setCmdErr_exhausted (s : State) (c : Code) : (s.setCmdErr c).exhausted = s.exhausted := rfl
@[simp] theorem State.setCmdErr_partialEmb (s : State) (c : Code) : (s.setCmdErr c).partialEmb = s.partialEmb := rfl
@[simp] theorem State.setCmdErr_cmdErr (s : State) (c : Code) : (s.setCmdErr c).cmdErr = c := rfl
@[simp] theorem State.setCmdErr_runErr (s : State) (c : Code) : (s.setCmdErr c).runErr = s.runErr := rfl
@[simp] theorem State.setCmdErr_iterValid (s : State) (c : Code) : (s.setCmdErr c).iterValid = s.iterValid := rfl
@[simp] theorem State.setCmdErr_overrun (s : State) (c : Code) : (s.setCmdErr c).overrun = s.overrun := rfl
@[simp] theorem State.setCmdErr_q (s : State) (c : Code) : (s.setCmdErr c).q = s.q := rfl
@[simp] theorem State.setCmdErr_crow (s : State) (c : Code) : (s.setCmdErr c).crow = s.crow := rfl
@[simp] theorem State.setCmdErr_ccol (s : State) (c : Code) : (s.setCmdErr c).ccol = s.ccol := rfl
@[simp] theorem State.setCmdErr_frameW (s : State) (c : Code) : (s.setCmdErr c).frameW = s.frameW := rfl
@[simp] theorem State.setCmdErr_frameH (s : State) (c : Code) : (s.setCmdErr c).frameH = s.frameH := rfl
@[simp] theorem State.setCmdErr_payLen (s : State) (c : Code) : (s.setCmdErr c).payLen = s.payLen := rfl
@[simp] theorem State.setCmdErr_parseLen (s : State) (c : Code) : (s.setCmdErr c).parseLen = s.parseLen := rfl
@[simp] theorem State.setCmdErr_coefIn (s : State) (c : Code) : (s.setCmdErr c).coefIn = s.coefIn := rfl
@[simp] theorem State.setCmdErr_coefOut (s : State) (c : Code) : (s.setCmdErr c).coefOut = s.coefOut := rfl
@[simp] theorem State.setCmdErr_idx (s : State) (c : Code) : (s.setCmdErr c).idx = s.idx := rfl
@[simp] theorem State.setCmdErr_bitOut (s : State) (c : Code) : (s.setCmdErr c).bitOut = s.bitOut := rfl
@[simp] theorem State.setCmdErr_resLen (s : State) (c : Code) : (s.setCmdErr c).resLen = s.resLen := rfl
@[simp] theorem State.setCmdErr_resOff (s : State) (c : Code) : (s.setCmdErr c).resOff = s.resOff := rfl
@[simp] theorem State.setCmdErr_frameCnt (s : State) (c : Code) : (s.setCmdErr c).frameCnt = s.frameCnt := rfl
@[simp] theorem State.setCmdErr_bitsDone (s : State) (c : Code) : (s.setCmdErr c).bitsDone = s.bitsDone := rfl
@[simp] theorem State.setCmdErr_bitsReq (s : State) (c : Code) : (s.setCmdErr c).bitsReq = s.bitsReq := rfl
@[simp] theorem State.setCmdErr_errExp (s : State) (c : Code) : (s.setCmdErr c).errExp = s.errExp := rfl
@[simp] theorem State.setCmdErr_errObs (s : State) (c : Code) : (s.setCmdErr c).errObs = s.errObs := rfl
@[simp] theorem State.setCmdErr_iterRow (s : State) (c : Code) : (s.setCmdErr c).iterRow = s.iterRow := rfl
@[simp] theorem State.setCmdErr_iterCol (s : State) (c : Code) : (s.setCmdErr c).iterCol = s.iterCol := rfl
@[simp] theorem State.setCmdErr_hdr (s : State) (c : Code) : (s.setCmdErr c).hdr = s.hdr := rfl
@[simp] theorem State.setCmdErr_lq (s : State) (c : Code) : (s.setCmdErr c).lq = s.lq := rfl
@[simp] theorem State.setCmdErr_lcrow (s : State) (c : Code) : (s.setCmdErr c).lcrow = s.lcrow := rfl
@[simp] theorem State.setCmdErr_lccol (s : State) (c : Code) : (s.setCmdErr c).lccol = s.lccol := rfl
@[simp] theorem State.setCmdErr_lw (s : State) (c : Code) : (s.setCmdErr c).lw = s.lw := rfl
@[simp] theorem State.setCmdErr_lh (s : State) (c : Code) : (s.setCmdErr c).lh = s.lh := rfl
@[simp] theorem State.setCmdErr_llen (s : State) (c : Code) : (s.setCmdErr c).llen = s.llen := rfl
@[simp] theorem State.setCmdErr_byteSr (s : State) (c : Code) : (s.setCmdErr c).byteSr = s.byteSr := rfl
@[simp] theorem State.setCmdErr_fmem (s : State) (c : Code) : (s.setCmdErr c).fmem = s.fmem := rfl
@[simp] theorem State.setCmdErr_pmem (s : State) (c : Code) : (s.setCmdErr c).pmem = s.pmem := rfl
@[simp] theorem State.setCmdErr_inputs (s : State) (c : Code) : (s.setCmdErr c).inputs = s.inputs := rfl
@[simp] theorem State.setCmdErr_rdData (s : State) (c : Code) : (s.setCmdErr c).rdData = s.rdData := rfl
@[simp] theorem State.setCmdErr_draws (s : State) (c : Code) : (s.setCmdErr c).draws = s.draws := rfl

/-! ### setCounts -/

@[simp] theorem State.setCounts_build (s : State) (e o : DWord) : (s.setCounts e o).build = s.build := rfl
@[simp] theorem State.setCounts_busy (s : State) (e o : DWord) : (s.setCounts e o).busy = s.busy := rfl
@[simp] theorem State.setCounts_mode (s : State) (e o : DWord) : (s.setCounts e o).mode = s.mode := rfl
@[simp] theorem State.setCounts_run (s : State) (e o : DWord) : (s.setCounts e o).run = s.run := rfl
@[simp] theorem State.setCounts_hdrValid (s : State) (e o : DWord) : (s.setCounts e o).hdrValid = s.hdrValid := rfl
@[simp] theorem State.setCounts_exhausted (s : State) (e o : DWord) : (s.setCounts e o).exhausted = s.exhausted := rfl
@[simp] theorem State.setCounts_partialEmb (s : State) (e o : DWord) : (s.setCounts e o).partialEmb = s.partialEmb := rfl
@[simp] theorem State.setCounts_cmdErr (s : State) (e o : DWord) : (s.setCounts e o).cmdErr = s.cmdErr := rfl
@[simp] theorem State.setCounts_runErr (s : State) (e o : DWord) : (s.setCounts e o).runErr = s.runErr := rfl
@[simp] theorem State.setCounts_iterValid (s : State) (e o : DWord) : (s.setCounts e o).iterValid = s.iterValid := rfl
@[simp] theorem State.setCounts_overrun (s : State) (e o : DWord) : (s.setCounts e o).overrun = s.overrun := rfl
@[simp] theorem State.setCounts_q (s : State) (e o : DWord) : (s.setCounts e o).q = s.q := rfl
@[simp] theorem State.setCounts_crow (s : State) (e o : DWord) : (s.setCounts e o).crow = s.crow := rfl
@[simp] theorem State.setCounts_ccol (s : State) (e o : DWord) : (s.setCounts e o).ccol = s.ccol := rfl
@[simp] theorem State.setCounts_frameW (s : State) (e o : DWord) : (s.setCounts e o).frameW = s.frameW := rfl
@[simp] theorem State.setCounts_frameH (s : State) (e o : DWord) : (s.setCounts e o).frameH = s.frameH := rfl
@[simp] theorem State.setCounts_payLen (s : State) (e o : DWord) : (s.setCounts e o).payLen = s.payLen := rfl
@[simp] theorem State.setCounts_parseLen (s : State) (e o : DWord) : (s.setCounts e o).parseLen = s.parseLen := rfl
@[simp] theorem State.setCounts_coefIn (s : State) (e o : DWord) : (s.setCounts e o).coefIn = s.coefIn := rfl
@[simp] theorem State.setCounts_coefOut (s : State) (e o : DWord) : (s.setCounts e o).coefOut = s.coefOut := rfl
@[simp] theorem State.setCounts_idx (s : State) (e o : DWord) : (s.setCounts e o).idx = s.idx := rfl
@[simp] theorem State.setCounts_bitOut (s : State) (e o : DWord) : (s.setCounts e o).bitOut = s.bitOut := rfl
@[simp] theorem State.setCounts_resLen (s : State) (e o : DWord) : (s.setCounts e o).resLen = s.resLen := rfl
@[simp] theorem State.setCounts_resOff (s : State) (e o : DWord) : (s.setCounts e o).resOff = s.resOff := rfl
@[simp] theorem State.setCounts_frameCnt (s : State) (e o : DWord) : (s.setCounts e o).frameCnt = s.frameCnt := rfl
@[simp] theorem State.setCounts_bitsDone (s : State) (e o : DWord) : (s.setCounts e o).bitsDone = s.bitsDone := rfl
@[simp] theorem State.setCounts_bitsReq (s : State) (e o : DWord) : (s.setCounts e o).bitsReq = s.bitsReq := rfl
@[simp] theorem State.setCounts_errExp (s : State) (e o : DWord) : (s.setCounts e o).errExp = e := rfl
@[simp] theorem State.setCounts_errObs (s : State) (e o : DWord) : (s.setCounts e o).errObs = o := rfl
@[simp] theorem State.setCounts_iterRow (s : State) (e o : DWord) : (s.setCounts e o).iterRow = s.iterRow := rfl
@[simp] theorem State.setCounts_iterCol (s : State) (e o : DWord) : (s.setCounts e o).iterCol = s.iterCol := rfl
@[simp] theorem State.setCounts_hdr (s : State) (e o : DWord) : (s.setCounts e o).hdr = s.hdr := rfl
@[simp] theorem State.setCounts_lq (s : State) (e o : DWord) : (s.setCounts e o).lq = s.lq := rfl
@[simp] theorem State.setCounts_lcrow (s : State) (e o : DWord) : (s.setCounts e o).lcrow = s.lcrow := rfl
@[simp] theorem State.setCounts_lccol (s : State) (e o : DWord) : (s.setCounts e o).lccol = s.lccol := rfl
@[simp] theorem State.setCounts_lw (s : State) (e o : DWord) : (s.setCounts e o).lw = s.lw := rfl
@[simp] theorem State.setCounts_lh (s : State) (e o : DWord) : (s.setCounts e o).lh = s.lh := rfl
@[simp] theorem State.setCounts_llen (s : State) (e o : DWord) : (s.setCounts e o).llen = s.llen := rfl
@[simp] theorem State.setCounts_byteSr (s : State) (e o : DWord) : (s.setCounts e o).byteSr = s.byteSr := rfl
@[simp] theorem State.setCounts_fmem (s : State) (e o : DWord) : (s.setCounts e o).fmem = s.fmem := rfl
@[simp] theorem State.setCounts_pmem (s : State) (e o : DWord) : (s.setCounts e o).pmem = s.pmem := rfl
@[simp] theorem State.setCounts_inputs (s : State) (e o : DWord) : (s.setCounts e o).inputs = s.inputs := rfl
@[simp] theorem State.setCounts_rdData (s : State) (e o : DWord) : (s.setCounts e o).rdData = s.rdData := rfl
@[simp] theorem State.setCounts_draws (s : State) (e o : DWord) : (s.setCounts e o).draws = s.draws := rfl

/-! ### setOverrun -/

@[simp] theorem State.setOverrun_build (s : State) : (s.setOverrun).build = s.build := rfl
@[simp] theorem State.setOverrun_busy (s : State) : (s.setOverrun).busy = s.busy := rfl
@[simp] theorem State.setOverrun_mode (s : State) : (s.setOverrun).mode = s.mode := rfl
@[simp] theorem State.setOverrun_run (s : State) : (s.setOverrun).run = s.run := rfl
@[simp] theorem State.setOverrun_hdrValid (s : State) : (s.setOverrun).hdrValid = s.hdrValid := rfl
@[simp] theorem State.setOverrun_exhausted (s : State) : (s.setOverrun).exhausted = s.exhausted := rfl
@[simp] theorem State.setOverrun_partialEmb (s : State) : (s.setOverrun).partialEmb = s.partialEmb := rfl
@[simp] theorem State.setOverrun_cmdErr (s : State) : (s.setOverrun).cmdErr = s.cmdErr := rfl
@[simp] theorem State.setOverrun_runErr (s : State) : (s.setOverrun).runErr = s.runErr := rfl
@[simp] theorem State.setOverrun_iterValid (s : State) : (s.setOverrun).iterValid = s.iterValid := rfl
@[simp] theorem State.setOverrun_overrun (s : State) : (s.setOverrun).overrun = true := rfl
@[simp] theorem State.setOverrun_q (s : State) : (s.setOverrun).q = s.q := rfl
@[simp] theorem State.setOverrun_crow (s : State) : (s.setOverrun).crow = s.crow := rfl
@[simp] theorem State.setOverrun_ccol (s : State) : (s.setOverrun).ccol = s.ccol := rfl
@[simp] theorem State.setOverrun_frameW (s : State) : (s.setOverrun).frameW = s.frameW := rfl
@[simp] theorem State.setOverrun_frameH (s : State) : (s.setOverrun).frameH = s.frameH := rfl
@[simp] theorem State.setOverrun_payLen (s : State) : (s.setOverrun).payLen = s.payLen := rfl
@[simp] theorem State.setOverrun_parseLen (s : State) : (s.setOverrun).parseLen = s.parseLen := rfl
@[simp] theorem State.setOverrun_coefIn (s : State) : (s.setOverrun).coefIn = s.coefIn := rfl
@[simp] theorem State.setOverrun_coefOut (s : State) : (s.setOverrun).coefOut = s.coefOut := rfl
@[simp] theorem State.setOverrun_idx (s : State) : (s.setOverrun).idx = s.idx := rfl
@[simp] theorem State.setOverrun_bitOut (s : State) : (s.setOverrun).bitOut = s.bitOut := rfl
@[simp] theorem State.setOverrun_resLen (s : State) : (s.setOverrun).resLen = s.resLen := rfl
@[simp] theorem State.setOverrun_resOff (s : State) : (s.setOverrun).resOff = s.resOff := rfl
@[simp] theorem State.setOverrun_frameCnt (s : State) : (s.setOverrun).frameCnt = s.frameCnt := rfl
@[simp] theorem State.setOverrun_bitsDone (s : State) : (s.setOverrun).bitsDone = s.bitsDone := rfl
@[simp] theorem State.setOverrun_bitsReq (s : State) : (s.setOverrun).bitsReq = s.bitsReq := rfl
@[simp] theorem State.setOverrun_errExp (s : State) : (s.setOverrun).errExp = s.errExp := rfl
@[simp] theorem State.setOverrun_errObs (s : State) : (s.setOverrun).errObs = s.errObs := rfl
@[simp] theorem State.setOverrun_iterRow (s : State) : (s.setOverrun).iterRow = s.iterRow := rfl
@[simp] theorem State.setOverrun_iterCol (s : State) : (s.setOverrun).iterCol = s.iterCol := rfl
@[simp] theorem State.setOverrun_hdr (s : State) : (s.setOverrun).hdr = s.hdr := rfl
@[simp] theorem State.setOverrun_lq (s : State) : (s.setOverrun).lq = s.lq := rfl
@[simp] theorem State.setOverrun_lcrow (s : State) : (s.setOverrun).lcrow = s.lcrow := rfl
@[simp] theorem State.setOverrun_lccol (s : State) : (s.setOverrun).lccol = s.lccol := rfl
@[simp] theorem State.setOverrun_lw (s : State) : (s.setOverrun).lw = s.lw := rfl
@[simp] theorem State.setOverrun_lh (s : State) : (s.setOverrun).lh = s.lh := rfl
@[simp] theorem State.setOverrun_llen (s : State) : (s.setOverrun).llen = s.llen := rfl
@[simp] theorem State.setOverrun_byteSr (s : State) : (s.setOverrun).byteSr = s.byteSr := rfl
@[simp] theorem State.setOverrun_fmem (s : State) : (s.setOverrun).fmem = s.fmem := rfl
@[simp] theorem State.setOverrun_pmem (s : State) : (s.setOverrun).pmem = s.pmem := rfl
@[simp] theorem State.setOverrun_inputs (s : State) : (s.setOverrun).inputs = s.inputs := rfl
@[simp] theorem State.setOverrun_rdData (s : State) : (s.setOverrun).rdData = s.rdData := rfl
@[simp] theorem State.setOverrun_draws (s : State) : (s.setOverrun).draws = s.draws := rfl

/-! ### setIter -/

@[simp] theorem State.setIter_build (s : State) (p : Bool × Half × Half) : (s.setIter p).build = s.build := rfl
@[simp] theorem State.setIter_busy (s : State) (p : Bool × Half × Half) : (s.setIter p).busy = s.busy := rfl
@[simp] theorem State.setIter_mode (s : State) (p : Bool × Half × Half) : (s.setIter p).mode = s.mode := rfl
@[simp] theorem State.setIter_run (s : State) (p : Bool × Half × Half) : (s.setIter p).run = s.run := rfl
@[simp] theorem State.setIter_hdrValid (s : State) (p : Bool × Half × Half) : (s.setIter p).hdrValid = s.hdrValid := rfl
@[simp] theorem State.setIter_exhausted (s : State) (p : Bool × Half × Half) : (s.setIter p).exhausted = s.exhausted := rfl
@[simp] theorem State.setIter_partialEmb (s : State) (p : Bool × Half × Half) : (s.setIter p).partialEmb = s.partialEmb := rfl
@[simp] theorem State.setIter_cmdErr (s : State) (p : Bool × Half × Half) : (s.setIter p).cmdErr = s.cmdErr := rfl
@[simp] theorem State.setIter_runErr (s : State) (p : Bool × Half × Half) : (s.setIter p).runErr = s.runErr := rfl
@[simp] theorem State.setIter_iterValid (s : State) (p : Bool × Half × Half) : (s.setIter p).iterValid = p.1 := rfl
@[simp] theorem State.setIter_overrun (s : State) (p : Bool × Half × Half) : (s.setIter p).overrun = s.overrun := rfl
@[simp] theorem State.setIter_q (s : State) (p : Bool × Half × Half) : (s.setIter p).q = s.q := rfl
@[simp] theorem State.setIter_crow (s : State) (p : Bool × Half × Half) : (s.setIter p).crow = s.crow := rfl
@[simp] theorem State.setIter_ccol (s : State) (p : Bool × Half × Half) : (s.setIter p).ccol = s.ccol := rfl
@[simp] theorem State.setIter_frameW (s : State) (p : Bool × Half × Half) : (s.setIter p).frameW = s.frameW := rfl
@[simp] theorem State.setIter_frameH (s : State) (p : Bool × Half × Half) : (s.setIter p).frameH = s.frameH := rfl
@[simp] theorem State.setIter_payLen (s : State) (p : Bool × Half × Half) : (s.setIter p).payLen = s.payLen := rfl
@[simp] theorem State.setIter_parseLen (s : State) (p : Bool × Half × Half) : (s.setIter p).parseLen = s.parseLen := rfl
@[simp] theorem State.setIter_coefIn (s : State) (p : Bool × Half × Half) : (s.setIter p).coefIn = s.coefIn := rfl
@[simp] theorem State.setIter_coefOut (s : State) (p : Bool × Half × Half) : (s.setIter p).coefOut = s.coefOut := rfl
@[simp] theorem State.setIter_idx (s : State) (p : Bool × Half × Half) : (s.setIter p).idx = s.idx := rfl
@[simp] theorem State.setIter_bitOut (s : State) (p : Bool × Half × Half) : (s.setIter p).bitOut = s.bitOut := rfl
@[simp] theorem State.setIter_resLen (s : State) (p : Bool × Half × Half) : (s.setIter p).resLen = s.resLen := rfl
@[simp] theorem State.setIter_resOff (s : State) (p : Bool × Half × Half) : (s.setIter p).resOff = s.resOff := rfl
@[simp] theorem State.setIter_frameCnt (s : State) (p : Bool × Half × Half) : (s.setIter p).frameCnt = s.frameCnt := rfl
@[simp] theorem State.setIter_bitsDone (s : State) (p : Bool × Half × Half) : (s.setIter p).bitsDone = s.bitsDone := rfl
@[simp] theorem State.setIter_bitsReq (s : State) (p : Bool × Half × Half) : (s.setIter p).bitsReq = s.bitsReq := rfl
@[simp] theorem State.setIter_errExp (s : State) (p : Bool × Half × Half) : (s.setIter p).errExp = s.errExp := rfl
@[simp] theorem State.setIter_errObs (s : State) (p : Bool × Half × Half) : (s.setIter p).errObs = s.errObs := rfl
@[simp] theorem State.setIter_iterRow (s : State) (p : Bool × Half × Half) : (s.setIter p).iterRow = p.2.1 := rfl
@[simp] theorem State.setIter_iterCol (s : State) (p : Bool × Half × Half) : (s.setIter p).iterCol = p.2.2 := rfl
@[simp] theorem State.setIter_hdr (s : State) (p : Bool × Half × Half) : (s.setIter p).hdr = s.hdr := rfl
@[simp] theorem State.setIter_lq (s : State) (p : Bool × Half × Half) : (s.setIter p).lq = s.lq := rfl
@[simp] theorem State.setIter_lcrow (s : State) (p : Bool × Half × Half) : (s.setIter p).lcrow = s.lcrow := rfl
@[simp] theorem State.setIter_lccol (s : State) (p : Bool × Half × Half) : (s.setIter p).lccol = s.lccol := rfl
@[simp] theorem State.setIter_lw (s : State) (p : Bool × Half × Half) : (s.setIter p).lw = s.lw := rfl
@[simp] theorem State.setIter_lh (s : State) (p : Bool × Half × Half) : (s.setIter p).lh = s.lh := rfl
@[simp] theorem State.setIter_llen (s : State) (p : Bool × Half × Half) : (s.setIter p).llen = s.llen := rfl
@[simp] theorem State.setIter_byteSr (s : State) (p : Bool × Half × Half) : (s.setIter p).byteSr = s.byteSr := rfl
@[simp] theorem State.setIter_fmem (s : State) (p : Bool × Half × Half) : (s.setIter p).fmem = s.fmem := rfl
@[simp] theorem State.setIter_pmem (s : State) (p : Bool × Half × Half) : (s.setIter p).pmem = s.pmem := rfl
@[simp] theorem State.setIter_inputs (s : State) (p : Bool × Half × Half) : (s.setIter p).inputs = s.inputs := rfl
@[simp] theorem State.setIter_rdData (s : State) (p : Bool × Half × Half) : (s.setIter p).rdData = s.rdData := rfl
@[simp] theorem State.setIter_draws (s : State) (p : Bool × Half × Half) : (s.setIter p).draws = s.draws := rfl

/-! ### latch -/

@[simp] theorem State.latch_build (s : State) (l : Word) : (s.latch l).build = s.build := rfl
@[simp] theorem State.latch_busy (s : State) (l : Word) : (s.latch l).busy = s.busy := rfl
@[simp] theorem State.latch_mode (s : State) (l : Word) : (s.latch l).mode = s.mode := rfl
@[simp] theorem State.latch_run (s : State) (l : Word) : (s.latch l).run = s.run := rfl
@[simp] theorem State.latch_hdrValid (s : State) (l : Word) : (s.latch l).hdrValid = s.hdrValid := rfl
@[simp] theorem State.latch_exhausted (s : State) (l : Word) : (s.latch l).exhausted = s.exhausted := rfl
@[simp] theorem State.latch_partialEmb (s : State) (l : Word) : (s.latch l).partialEmb = s.partialEmb := rfl
@[simp] theorem State.latch_cmdErr (s : State) (l : Word) : (s.latch l).cmdErr = s.cmdErr := rfl
@[simp] theorem State.latch_runErr (s : State) (l : Word) : (s.latch l).runErr = s.runErr := rfl
@[simp] theorem State.latch_iterValid (s : State) (l : Word) : (s.latch l).iterValid = s.iterValid := rfl
@[simp] theorem State.latch_overrun (s : State) (l : Word) : (s.latch l).overrun = s.overrun := rfl
@[simp] theorem State.latch_q (s : State) (l : Word) : (s.latch l).q = s.q := rfl
@[simp] theorem State.latch_crow (s : State) (l : Word) : (s.latch l).crow = s.crow := rfl
@[simp] theorem State.latch_ccol (s : State) (l : Word) : (s.latch l).ccol = s.ccol := rfl
@[simp] theorem State.latch_frameW (s : State) (l : Word) : (s.latch l).frameW = s.frameW := rfl
@[simp] theorem State.latch_frameH (s : State) (l : Word) : (s.latch l).frameH = s.frameH := rfl
@[simp] theorem State.latch_payLen (s : State) (l : Word) : (s.latch l).payLen = s.payLen := rfl
@[simp] theorem State.latch_parseLen (s : State) (l : Word) : (s.latch l).parseLen = s.parseLen := rfl
@[simp] theorem State.latch_coefIn (s : State) (l : Word) : (s.latch l).coefIn = s.coefIn := rfl
@[simp] theorem State.latch_coefOut (s : State) (l : Word) : (s.latch l).coefOut = s.coefOut := rfl
@[simp] theorem State.latch_idx (s : State) (l : Word) : (s.latch l).idx = s.idx := rfl
@[simp] theorem State.latch_bitOut (s : State) (l : Word) : (s.latch l).bitOut = s.bitOut := rfl
@[simp] theorem State.latch_resLen (s : State) (l : Word) : (s.latch l).resLen = s.resLen := rfl
@[simp] theorem State.latch_resOff (s : State) (l : Word) : (s.latch l).resOff = s.resOff := rfl
@[simp] theorem State.latch_frameCnt (s : State) (l : Word) : (s.latch l).frameCnt = s.frameCnt := rfl
@[simp] theorem State.latch_bitsDone (s : State) (l : Word) : (s.latch l).bitsDone = s.bitsDone := rfl
@[simp] theorem State.latch_bitsReq (s : State) (l : Word) : (s.latch l).bitsReq = s.bitsReq := rfl
@[simp] theorem State.latch_errExp (s : State) (l : Word) : (s.latch l).errExp = s.errExp := rfl
@[simp] theorem State.latch_errObs (s : State) (l : Word) : (s.latch l).errObs = s.errObs := rfl
@[simp] theorem State.latch_iterRow (s : State) (l : Word) : (s.latch l).iterRow = s.iterRow := rfl
@[simp] theorem State.latch_iterCol (s : State) (l : Word) : (s.latch l).iterCol = s.iterCol := rfl
@[simp] theorem State.latch_hdr (s : State) (l : Word) : (s.latch l).hdr = s.hdr := rfl
@[simp] theorem State.latch_lq (s : State) (l : Word) : (s.latch l).lq = s.q := rfl
@[simp] theorem State.latch_lcrow (s : State) (l : Word) : (s.latch l).lcrow = s.crow := rfl
@[simp] theorem State.latch_lccol (s : State) (l : Word) : (s.latch l).lccol = s.ccol := rfl
@[simp] theorem State.latch_lw (s : State) (l : Word) : (s.latch l).lw = s.frameW := rfl
@[simp] theorem State.latch_lh (s : State) (l : Word) : (s.latch l).lh = s.frameH := rfl
@[simp] theorem State.latch_llen (s : State) (l : Word) : (s.latch l).llen = l := rfl
@[simp] theorem State.latch_byteSr (s : State) (l : Word) : (s.latch l).byteSr = s.byteSr := rfl
@[simp] theorem State.latch_fmem (s : State) (l : Word) : (s.latch l).fmem = s.fmem := rfl
@[simp] theorem State.latch_pmem (s : State) (l : Word) : (s.latch l).pmem = s.pmem := rfl
@[simp] theorem State.latch_inputs (s : State) (l : Word) : (s.latch l).inputs = s.inputs := rfl
@[simp] theorem State.latch_rdData (s : State) (l : Word) : (s.latch l).rdData = s.rdData := rfl
@[simp] theorem State.latch_draws (s : State) (l : Word) : (s.latch l).draws = s.draws := rfl

/-! ### setInputs -/

@[simp] theorem State.setInputs_build (s : State) (es : List Event) : (s.setInputs es).build = s.build := rfl
@[simp] theorem State.setInputs_busy (s : State) (es : List Event) : (s.setInputs es).busy = s.busy := rfl
@[simp] theorem State.setInputs_mode (s : State) (es : List Event) : (s.setInputs es).mode = s.mode := rfl
@[simp] theorem State.setInputs_run (s : State) (es : List Event) : (s.setInputs es).run = s.run := rfl
@[simp] theorem State.setInputs_hdrValid (s : State) (es : List Event) : (s.setInputs es).hdrValid = s.hdrValid := rfl
@[simp] theorem State.setInputs_exhausted (s : State) (es : List Event) : (s.setInputs es).exhausted = s.exhausted := rfl
@[simp] theorem State.setInputs_partialEmb (s : State) (es : List Event) : (s.setInputs es).partialEmb = s.partialEmb := rfl
@[simp] theorem State.setInputs_cmdErr (s : State) (es : List Event) : (s.setInputs es).cmdErr = s.cmdErr := rfl
@[simp] theorem State.setInputs_runErr (s : State) (es : List Event) : (s.setInputs es).runErr = s.runErr := rfl
@[simp] theorem State.setInputs_iterValid (s : State) (es : List Event) : (s.setInputs es).iterValid = s.iterValid := rfl
@[simp] theorem State.setInputs_overrun (s : State) (es : List Event) : (s.setInputs es).overrun = s.overrun := rfl
@[simp] theorem State.setInputs_q (s : State) (es : List Event) : (s.setInputs es).q = s.q := rfl
@[simp] theorem State.setInputs_crow (s : State) (es : List Event) : (s.setInputs es).crow = s.crow := rfl
@[simp] theorem State.setInputs_ccol (s : State) (es : List Event) : (s.setInputs es).ccol = s.ccol := rfl
@[simp] theorem State.setInputs_frameW (s : State) (es : List Event) : (s.setInputs es).frameW = s.frameW := rfl
@[simp] theorem State.setInputs_frameH (s : State) (es : List Event) : (s.setInputs es).frameH = s.frameH := rfl
@[simp] theorem State.setInputs_payLen (s : State) (es : List Event) : (s.setInputs es).payLen = s.payLen := rfl
@[simp] theorem State.setInputs_parseLen (s : State) (es : List Event) : (s.setInputs es).parseLen = s.parseLen := rfl
@[simp] theorem State.setInputs_coefIn (s : State) (es : List Event) : (s.setInputs es).coefIn = s.coefIn := rfl
@[simp] theorem State.setInputs_coefOut (s : State) (es : List Event) : (s.setInputs es).coefOut = s.coefOut := rfl
@[simp] theorem State.setInputs_idx (s : State) (es : List Event) : (s.setInputs es).idx = s.idx := rfl
@[simp] theorem State.setInputs_bitOut (s : State) (es : List Event) : (s.setInputs es).bitOut = s.bitOut := rfl
@[simp] theorem State.setInputs_resLen (s : State) (es : List Event) : (s.setInputs es).resLen = s.resLen := rfl
@[simp] theorem State.setInputs_resOff (s : State) (es : List Event) : (s.setInputs es).resOff = s.resOff := rfl
@[simp] theorem State.setInputs_frameCnt (s : State) (es : List Event) : (s.setInputs es).frameCnt = s.frameCnt := rfl
@[simp] theorem State.setInputs_bitsDone (s : State) (es : List Event) : (s.setInputs es).bitsDone = s.bitsDone := rfl
@[simp] theorem State.setInputs_bitsReq (s : State) (es : List Event) : (s.setInputs es).bitsReq = s.bitsReq := rfl
@[simp] theorem State.setInputs_errExp (s : State) (es : List Event) : (s.setInputs es).errExp = s.errExp := rfl
@[simp] theorem State.setInputs_errObs (s : State) (es : List Event) : (s.setInputs es).errObs = s.errObs := rfl
@[simp] theorem State.setInputs_iterRow (s : State) (es : List Event) : (s.setInputs es).iterRow = s.iterRow := rfl
@[simp] theorem State.setInputs_iterCol (s : State) (es : List Event) : (s.setInputs es).iterCol = s.iterCol := rfl
@[simp] theorem State.setInputs_hdr (s : State) (es : List Event) : (s.setInputs es).hdr = s.hdr := rfl
@[simp] theorem State.setInputs_lq (s : State) (es : List Event) : (s.setInputs es).lq = s.lq := rfl
@[simp] theorem State.setInputs_lcrow (s : State) (es : List Event) : (s.setInputs es).lcrow = s.lcrow := rfl
@[simp] theorem State.setInputs_lccol (s : State) (es : List Event) : (s.setInputs es).lccol = s.lccol := rfl
@[simp] theorem State.setInputs_lw (s : State) (es : List Event) : (s.setInputs es).lw = s.lw := rfl
@[simp] theorem State.setInputs_lh (s : State) (es : List Event) : (s.setInputs es).lh = s.lh := rfl
@[simp] theorem State.setInputs_llen (s : State) (es : List Event) : (s.setInputs es).llen = s.llen := rfl
@[simp] theorem State.setInputs_byteSr (s : State) (es : List Event) : (s.setInputs es).byteSr = s.byteSr := rfl
@[simp] theorem State.setInputs_fmem (s : State) (es : List Event) : (s.setInputs es).fmem = s.fmem := rfl
@[simp] theorem State.setInputs_pmem (s : State) (es : List Event) : (s.setInputs es).pmem = s.pmem := rfl
@[simp] theorem State.setInputs_inputs (s : State) (es : List Event) : (s.setInputs es).inputs = es := rfl
@[simp] theorem State.setInputs_rdData (s : State) (es : List Event) : (s.setInputs es).rdData = s.rdData := rfl
@[simp] theorem State.setInputs_draws (s : State) (es : List Event) : (s.setInputs es).draws = s.draws := rfl

/-! ### setRdData -/

@[simp] theorem State.setRdData_build (s : State) (v : Word) : (s.setRdData v).build = s.build := rfl
@[simp] theorem State.setRdData_busy (s : State) (v : Word) : (s.setRdData v).busy = s.busy := rfl
@[simp] theorem State.setRdData_mode (s : State) (v : Word) : (s.setRdData v).mode = s.mode := rfl
@[simp] theorem State.setRdData_run (s : State) (v : Word) : (s.setRdData v).run = s.run := rfl
@[simp] theorem State.setRdData_hdrValid (s : State) (v : Word) : (s.setRdData v).hdrValid = s.hdrValid := rfl
@[simp] theorem State.setRdData_exhausted (s : State) (v : Word) : (s.setRdData v).exhausted = s.exhausted := rfl
@[simp] theorem State.setRdData_partialEmb (s : State) (v : Word) : (s.setRdData v).partialEmb = s.partialEmb := rfl
@[simp] theorem State.setRdData_cmdErr (s : State) (v : Word) : (s.setRdData v).cmdErr = s.cmdErr := rfl
@[simp] theorem State.setRdData_runErr (s : State) (v : Word) : (s.setRdData v).runErr = s.runErr := rfl
@[simp] theorem State.setRdData_iterValid (s : State) (v : Word) : (s.setRdData v).iterValid = s.iterValid := rfl
@[simp] theorem State.setRdData_overrun (s : State) (v : Word) : (s.setRdData v).overrun = s.overrun := rfl
@[simp] theorem State.setRdData_q (s : State) (v : Word) : (s.setRdData v).q = s.q := rfl
@[simp] theorem State.setRdData_crow (s : State) (v : Word) : (s.setRdData v).crow = s.crow := rfl
@[simp] theorem State.setRdData_ccol (s : State) (v : Word) : (s.setRdData v).ccol = s.ccol := rfl
@[simp] theorem State.setRdData_frameW (s : State) (v : Word) : (s.setRdData v).frameW = s.frameW := rfl
@[simp] theorem State.setRdData_frameH (s : State) (v : Word) : (s.setRdData v).frameH = s.frameH := rfl
@[simp] theorem State.setRdData_payLen (s : State) (v : Word) : (s.setRdData v).payLen = s.payLen := rfl
@[simp] theorem State.setRdData_parseLen (s : State) (v : Word) : (s.setRdData v).parseLen = s.parseLen := rfl
@[simp] theorem State.setRdData_coefIn (s : State) (v : Word) : (s.setRdData v).coefIn = s.coefIn := rfl
@[simp] theorem State.setRdData_coefOut (s : State) (v : Word) : (s.setRdData v).coefOut = s.coefOut := rfl
@[simp] theorem State.setRdData_idx (s : State) (v : Word) : (s.setRdData v).idx = s.idx := rfl
@[simp] theorem State.setRdData_bitOut (s : State) (v : Word) : (s.setRdData v).bitOut = s.bitOut := rfl
@[simp] theorem State.setRdData_resLen (s : State) (v : Word) : (s.setRdData v).resLen = s.resLen := rfl
@[simp] theorem State.setRdData_resOff (s : State) (v : Word) : (s.setRdData v).resOff = s.resOff := rfl
@[simp] theorem State.setRdData_frameCnt (s : State) (v : Word) : (s.setRdData v).frameCnt = s.frameCnt := rfl
@[simp] theorem State.setRdData_bitsDone (s : State) (v : Word) : (s.setRdData v).bitsDone = s.bitsDone := rfl
@[simp] theorem State.setRdData_bitsReq (s : State) (v : Word) : (s.setRdData v).bitsReq = s.bitsReq := rfl
@[simp] theorem State.setRdData_errExp (s : State) (v : Word) : (s.setRdData v).errExp = s.errExp := rfl
@[simp] theorem State.setRdData_errObs (s : State) (v : Word) : (s.setRdData v).errObs = s.errObs := rfl
@[simp] theorem State.setRdData_iterRow (s : State) (v : Word) : (s.setRdData v).iterRow = s.iterRow := rfl
@[simp] theorem State.setRdData_iterCol (s : State) (v : Word) : (s.setRdData v).iterCol = s.iterCol := rfl
@[simp] theorem State.setRdData_hdr (s : State) (v : Word) : (s.setRdData v).hdr = s.hdr := rfl
@[simp] theorem State.setRdData_lq (s : State) (v : Word) : (s.setRdData v).lq = s.lq := rfl
@[simp] theorem State.setRdData_lcrow (s : State) (v : Word) : (s.setRdData v).lcrow = s.lcrow := rfl
@[simp] theorem State.setRdData_lccol (s : State) (v : Word) : (s.setRdData v).lccol = s.lccol := rfl
@[simp] theorem State.setRdData_lw (s : State) (v : Word) : (s.setRdData v).lw = s.lw := rfl
@[simp] theorem State.setRdData_lh (s : State) (v : Word) : (s.setRdData v).lh = s.lh := rfl
@[simp] theorem State.setRdData_llen (s : State) (v : Word) : (s.setRdData v).llen = s.llen := rfl
@[simp] theorem State.setRdData_byteSr (s : State) (v : Word) : (s.setRdData v).byteSr = s.byteSr := rfl
@[simp] theorem State.setRdData_fmem (s : State) (v : Word) : (s.setRdData v).fmem = s.fmem := rfl
@[simp] theorem State.setRdData_pmem (s : State) (v : Word) : (s.setRdData v).pmem = s.pmem := rfl
@[simp] theorem State.setRdData_inputs (s : State) (v : Word) : (s.setRdData v).inputs = s.inputs := rfl
@[simp] theorem State.setRdData_rdData (s : State) (v : Word) : (s.setRdData v).rdData = v := rfl
@[simp] theorem State.setRdData_draws (s : State) (v : Word) : (s.setRdData v).draws = s.draws := rfl

/-! ### setDraws -/

@[simp] theorem State.setDraws_build (s : State) (n : Nat) : (s.setDraws n).build = s.build := rfl
@[simp] theorem State.setDraws_busy (s : State) (n : Nat) : (s.setDraws n).busy = s.busy := rfl
@[simp] theorem State.setDraws_mode (s : State) (n : Nat) : (s.setDraws n).mode = s.mode := rfl
@[simp] theorem State.setDraws_run (s : State) (n : Nat) : (s.setDraws n).run = s.run := rfl
@[simp] theorem State.setDraws_hdrValid (s : State) (n : Nat) : (s.setDraws n).hdrValid = s.hdrValid := rfl
@[simp] theorem State.setDraws_exhausted (s : State) (n : Nat) : (s.setDraws n).exhausted = s.exhausted := rfl
@[simp] theorem State.setDraws_partialEmb (s : State) (n : Nat) : (s.setDraws n).partialEmb = s.partialEmb := rfl
@[simp] theorem State.setDraws_cmdErr (s : State) (n : Nat) : (s.setDraws n).cmdErr = s.cmdErr := rfl
@[simp] theorem State.setDraws_runErr (s : State) (n : Nat) : (s.setDraws n).runErr = s.runErr := rfl
@[simp] theorem State.setDraws_iterValid (s : State) (n : Nat) : (s.setDraws n).iterValid = s.iterValid := rfl
@[simp] theorem State.setDraws_overrun (s : State) (n : Nat) : (s.setDraws n).overrun = s.overrun := rfl
@[simp] theorem State.setDraws_q (s : State) (n : Nat) : (s.setDraws n).q = s.q := rfl
@[simp] theorem State.setDraws_crow (s : State) (n : Nat) : (s.setDraws n).crow = s.crow := rfl
@[simp] theorem State.setDraws_ccol (s : State) (n : Nat) : (s.setDraws n).ccol = s.ccol := rfl
@[simp] theorem State.setDraws_frameW (s : State) (n : Nat) : (s.setDraws n).frameW = s.frameW := rfl
@[simp] theorem State.setDraws_frameH (s : State) (n : Nat) : (s.setDraws n).frameH = s.frameH := rfl
@[simp] theorem State.setDraws_payLen (s : State) (n : Nat) : (s.setDraws n).payLen = s.payLen := rfl
@[simp] theorem State.setDraws_parseLen (s : State) (n : Nat) : (s.setDraws n).parseLen = s.parseLen := rfl
@[simp] theorem State.setDraws_coefIn (s : State) (n : Nat) : (s.setDraws n).coefIn = s.coefIn := rfl
@[simp] theorem State.setDraws_coefOut (s : State) (n : Nat) : (s.setDraws n).coefOut = s.coefOut := rfl
@[simp] theorem State.setDraws_idx (s : State) (n : Nat) : (s.setDraws n).idx = s.idx := rfl
@[simp] theorem State.setDraws_bitOut (s : State) (n : Nat) : (s.setDraws n).bitOut = s.bitOut := rfl
@[simp] theorem State.setDraws_resLen (s : State) (n : Nat) : (s.setDraws n).resLen = s.resLen := rfl
@[simp] theorem State.setDraws_resOff (s : State) (n : Nat) : (s.setDraws n).resOff = s.resOff := rfl
@[simp] theorem State.setDraws_frameCnt (s : State) (n : Nat) : (s.setDraws n).frameCnt = s.frameCnt := rfl
@[simp] theorem State.setDraws_bitsDone (s : State) (n : Nat) : (s.setDraws n).bitsDone = s.bitsDone := rfl
@[simp] theorem State.setDraws_bitsReq (s : State) (n : Nat) : (s.setDraws n).bitsReq = s.bitsReq := rfl
@[simp] theorem State.setDraws_errExp (s : State) (n : Nat) : (s.setDraws n).errExp = s.errExp := rfl
@[simp] theorem State.setDraws_errObs (s : State) (n : Nat) : (s.setDraws n).errObs = s.errObs := rfl
@[simp] theorem State.setDraws_iterRow (s : State) (n : Nat) : (s.setDraws n).iterRow = s.iterRow := rfl
@[simp] theorem State.setDraws_iterCol (s : State) (n : Nat) : (s.setDraws n).iterCol = s.iterCol := rfl
@[simp] theorem State.setDraws_hdr (s : State) (n : Nat) : (s.setDraws n).hdr = s.hdr := rfl
@[simp] theorem State.setDraws_lq (s : State) (n : Nat) : (s.setDraws n).lq = s.lq := rfl
@[simp] theorem State.setDraws_lcrow (s : State) (n : Nat) : (s.setDraws n).lcrow = s.lcrow := rfl
@[simp] theorem State.setDraws_lccol (s : State) (n : Nat) : (s.setDraws n).lccol = s.lccol := rfl
@[simp] theorem State.setDraws_lw (s : State) (n : Nat) : (s.setDraws n).lw = s.lw := rfl
@[simp] theorem State.setDraws_lh (s : State) (n : Nat) : (s.setDraws n).lh = s.lh := rfl
@[simp] theorem State.setDraws_llen (s : State) (n : Nat) : (s.setDraws n).llen = s.llen := rfl
@[simp] theorem State.setDraws_byteSr (s : State) (n : Nat) : (s.setDraws n).byteSr = s.byteSr := rfl
@[simp] theorem State.setDraws_fmem (s : State) (n : Nat) : (s.setDraws n).fmem = s.fmem := rfl
@[simp] theorem State.setDraws_pmem (s : State) (n : Nat) : (s.setDraws n).pmem = s.pmem := rfl
@[simp] theorem State.setDraws_inputs (s : State) (n : Nat) : (s.setDraws n).inputs = s.inputs := rfl
@[simp] theorem State.setDraws_rdData (s : State) (n : Nat) : (s.setDraws n).rdData = s.rdData := rfl
@[simp] theorem State.setDraws_draws (s : State) (n : Nat) : (s.setDraws n).draws = n := rfl

end Sys2Proof.Machine
end

