-- ==== Sys2Proof/Laws/Memory.lean ====
section
/-! SUPPORT. The laws of the byte memories: a read after a write, the canonical form, and what writing a block does. -/

namespace Sys2Proof.Machine

@[simp] theorem Memory.lookup_nil (a : Nat) : Memory.lookup [] a = none := rfl

theorem Memory.lookup_cons (b : Nat) (v : Byte) (m : Memory) (a : Nat) :
    Memory.lookup ((b, v) :: m) a = if b = a then some v else Memory.lookup m a := rfl

theorem Memory.lookup_write_same (m : Memory) (a : Nat) (v : Byte) : Memory.lookup (Memory.write m a v) a = some v := by
  induction m with
  | nil => simp [Memory.write, Memory.lookup]
  | cons c m ih =>
    obtain ⟨b, w⟩ := c
    simp only [Memory.write]
    split
    · simp [Memory.lookup]
    · split
      · simp [Memory.lookup]
      · next h => simpa [Memory.lookup, Ne.symm h] using ih

theorem Memory.lookup_write_other (m : Memory) {a b : Nat} (v : Byte) (h : b ≠ a) :
    Memory.lookup (Memory.write m a v) b = Memory.lookup m b := by
  induction m with
  | nil => simp [Memory.write, Memory.lookup, Ne.symm h]
  | cons c m ih =>
    obtain ⟨d, w⟩ := c
    simp only [Memory.write]
    split
    · simp [Memory.lookup, Ne.symm h]
    · split
      · next e => subst e; simp [Memory.lookup, Ne.symm h]
      · simp [Memory.lookup, ih]

theorem Memory.mem_write {m : Memory} {a : Nat} {v : Byte} {c : Host.Cell} (h : c ∈ Memory.write m a v) : c = (a, v) ∨ c ∈ m := by
  induction m with
  | nil => simpa [Memory.write] using h
  | cons d m ih =>
    obtain ⟨b, w⟩ := d
    simp only [Memory.write] at h
    split at h
    · simpa using h
    · split at h
      · rcases List.mem_cons.1 h with h | h
        · exact .inl h
        · exact .inr (List.mem_cons_of_mem _ h)
      · rcases List.mem_cons.1 h with h | h
        · exact .inr (h ▸ List.mem_cons_self)
        · exact (ih h).imp id (List.mem_cons_of_mem _)

/-- A write inside the address space keeps the canonical form. -/
theorem Memory.write_wf {m : Memory} {a : Nat} (v : Byte) (hm : Memory.wf m) (ha : a < 2 ^ 32) : Memory.wf (Memory.write m a v) := by
  obtain ⟨hp, hb⟩ := hm
  refine ⟨?_, fun c hc => (Memory.mem_write hc).elim (fun h => h ▸ ha) (hb c)⟩
  clear hb
  induction m with
  | nil => simp [Memory.write]
  | cons d m ih =>
    obtain ⟨b, w⟩ := d
    obtain ⟨hd, hm⟩ := List.pairwise_cons.1 hp
    simp only [Memory.write]
    split
    · next h =>
      refine List.pairwise_cons.2 ⟨fun c hc => ?_, hp⟩
      rcases List.mem_cons.1 hc with rfl | hc
      · exact h
      · exact lt_trans h (hd c hc)
    · split
      · next e => subst e; exact List.pairwise_cons.2 ⟨hd, hm⟩
      · next h e =>
        refine List.pairwise_cons.2 ⟨fun c hc => ?_, ih hm⟩
        rcases Memory.mem_write hc with rfl | hc
        · exact lt_of_le_of_ne (not_lt.1 h) (Ne.symm e)
        · exact hd c hc

theorem State.reset_fmem_wf : Memory.wf State.reset.fmem := by simp [Memory.wf, State.reset, State.powerOn]

theorem State.reset_pmem_wf : Memory.wf State.reset.pmem := by simp [Memory.wf, State.reset, State.powerOn]

/-! ### Reads of a state's memories -/

theorem State.fmemByte_setFmem_same (s : State) (a : Nat) (v : Byte) : (s.setFmem a v).fmemByte a = v := by
  simp [State.fmemByte, Memory.lookup_write_same]

theorem State.fmemByte_setFmem_other (s : State) {a b : Nat} (v : Byte) (h : b ≠ a) : (s.setFmem a v).fmemByte b = s.fmemByte b := by
  simp [State.fmemByte, Memory.lookup_write_other _ v h]

theorem State.pmemByte_setPmem_same (s : State) (a : Nat) (v : Byte) : (s.setPmem a v).pmemByte a = v := by
  simp [State.pmemByte, Memory.lookup_write_same]

theorem State.pmemByte_setPmem_other (s : State) {a b : Nat} (v : Byte) (h : b ≠ a) : (s.setPmem a v).pmemByte b = s.pmemByte b := by
  simp [State.pmemByte, Memory.lookup_write_other _ v h]

/-- Two states with the same FMEM read the same bytes. -/
theorem State.fmemByte_congr {s t : State} (h : t.fmem = s.fmem) (a : Nat) : t.fmemByte a = s.fmemByte a := by
  simp [State.fmemByte, h]

/-- Two states with the same PMEM read the same bytes. -/
theorem State.pmemByte_congr {s t : State} (h : t.pmem = s.pmem) (a : Nat) : t.pmemByte a = s.pmemByte a := by
  simp [State.pmemByte, h]

/-! ### Writing a list of cells -/

@[simp] theorem Memory.writeAll_nil (m : Memory) : Memory.writeAll m [] = m := by
  unfold Memory.writeAll
  rfl

@[simp] theorem Memory.writeAll_cons (m : Memory) (c : Host.Cell) (cs : List Host.Cell) :
    Memory.writeAll m (c :: cs) = Memory.writeAll (Memory.write m c.1 c.2) cs := by
  unfold Memory.writeAll
  rfl

theorem Memory.lookup_writeAll_other {b : Nat} : ∀ (cs : List Host.Cell) (m : Memory), (∀ c ∈ cs, b ≠ c.1) →
    Memory.lookup (Memory.writeAll m cs) b = Memory.lookup m b
  | [], m, _ => by rw [Memory.writeAll_nil]
  | c :: cs, m, h => by
    rw [Memory.writeAll_cons, Memory.lookup_writeAll_other cs _ fun d hd => h d (List.mem_cons_of_mem _ hd),
      Memory.lookup_write_other m c.2 (h c List.mem_cons_self)]

/-- Cells at distinct addresses are all read back. -/
theorem Memory.lookup_writeAll_same {c : Host.Cell} : ∀ (cs : List Host.Cell) (m : Memory), c ∈ cs →
    (cs.Pairwise fun x y => x.1 ≠ y.1) → Memory.lookup (Memory.writeAll m cs) c.1 = some c.2
  | d :: cs, m, hc, hd => by
    obtain ⟨hd, hp⟩ := List.pairwise_cons.1 hd
    rw [Memory.writeAll_cons]
    rcases List.mem_cons.1 hc with rfl | hc
    · rw [Memory.lookup_writeAll_other cs _ hd, Memory.lookup_write_same]
    · exact Memory.lookup_writeAll_same cs _ hc hp

theorem Memory.writeAll_wf : ∀ (cs : List Host.Cell) (m : Memory), Memory.wf m → (∀ c ∈ cs, c.1 < 2 ^ 32) →
    Memory.wf (Memory.writeAll m cs)
  | [], _, hm, _ => by rwa [Memory.writeAll_nil]
  | c :: cs, _, hm, h => by
    rw [Memory.writeAll_cons]
    exact Memory.writeAll_wf cs _ (Memory.write_wf c.2 hm (h c List.mem_cons_self)) fun d hd => h d (List.mem_cons_of_mem _ hd)

/-! ### Writing a block -/

theorem mem_blockCoords (c : Fin 8 × Fin 8) : c ∈ blockCoords := by
  simp [blockCoords]

/-- Writing a block changes nothing but FMEM. -/
theorem State.writeBlock_eq (s : State) (f : Fin 8 → Fin 8 → Byte) :
    s.writeBlock f = { s with fmem := Memory.writeAll s.fmem (s.blockCells f) } := rfl

theorem State.mem_blockCells {s : State} {f : Fin 8 → Fin 8 → Byte} {c : Host.Cell} :
    c ∈ s.blockCells f ↔ ∃ i j, c = (sampleAddr s.lw s.iterRow s.iterCol i j, f i j) := by
  constructor
  · intro h
    obtain ⟨d, -, rfl⟩ := List.mem_map.1 h
    exact ⟨d.1, d.2, rfl⟩
  · rintro ⟨i, j, rfl⟩
    exact List.mem_map.2 ⟨(i, j), mem_blockCoords _, rfl⟩

/-- The last sample of a block has its largest address. -/
theorem sampleAddr_le (w row col : Half) (i j : Fin 8) : sampleAddr w row col i j ≤ sampleAddr w row col 7 7 := by
  have hi := i.isLt
  have hj := j.isLt
  exact Nat.add_le_add (Nat.mul_le_mul_right _ (Nat.add_le_add_left (Nat.le_of_lt_succ hi) _))
    (Nat.add_le_add_left (Nat.le_of_lt_succ hj) _)

/-- In a frame at least 8 wide, the 64 samples of a block lie at distinct addresses. -/
theorem sampleAddr_injective {w row col : Half} (hw : 8 ≤ w.toNat) {i j k l : Fin 8}
    (h : sampleAddr w row col i j = sampleAddr w row col k l) : i = k ∧ j = l := by
  have hj := j.isLt
  have hl := l.isLt
  simp only [sampleAddr, Nat.add_mul] at h
  have key : i.val * w.toNat + j.val = k.val * w.toNat + l.val := by omega
  have hik : i.val = k.val := by
    rcases Nat.lt_trichotomy i.val k.val with h1 | h1 | h1
    · have := Nat.mul_le_mul_right w.toNat (Nat.succ_le_of_lt h1)
      rw [Nat.succ_mul] at this
      omega
    · exact h1
    · have := Nat.mul_le_mul_right w.toNat (Nat.succ_le_of_lt h1)
      rw [Nat.succ_mul] at this
      omega
  exact ⟨Fin.ext hik, Fin.ext (by rw [hik] at key; omega)⟩

theorem State.blockCells_pairwise (s : State) (f : Fin 8 → Fin 8 → Byte) (hw : 8 ≤ s.lw.toNat) :
    (s.blockCells f).Pairwise fun x y => x.1 ≠ y.1 := by
  have h : blockCoords.Pairwise fun x y => x ≠ y := by decide
  exact List.pairwise_map.2
    (h.imp fun {x y} hxy e => hxy (Prod.ext (sampleAddr_injective hw e).1 (sampleAddr_injective hw e).2))

/-- A byte outside the block keeps its value. -/
theorem State.writeBlock_other (s : State) (f : Fin 8 → Fin 8 → Byte) {a : Nat}
    (h : ∀ i j, a ≠ sampleAddr s.lw s.iterRow s.iterCol i j) : (s.writeBlock f).fmemByte a = s.fmemByte a := by
  simp only [State.fmemByte, State.writeBlock_eq]
  rw [Memory.lookup_writeAll_other]
  intro c hc
  obtain ⟨i, j, rfl⟩ := State.mem_blockCells.1 hc
  exact h i j

/-- Each sample of the block takes its new value. -/
theorem State.writeBlock_same (s : State) (f : Fin 8 → Fin 8 → Byte) (hw : 8 ≤ s.lw.toNat) (i j : Fin 8) :
    (s.writeBlock f).fmemByte (sampleAddr s.lw s.iterRow s.iterCol i j) = f i j := by
  have h := Memory.lookup_writeAll_same (c := (sampleAddr s.lw s.iterRow s.iterCol i j, f i j)) (s.blockCells f) s.fmem
    (State.mem_blockCells.2 ⟨i, j, rfl⟩) (State.blockCells_pairwise s f hw)
  simp only [State.fmemByte, State.writeBlock_eq, h, Option.getD_some]

theorem State.writeBlock_wf (s : State) (f : Fin 8 → Fin 8 → Byte) (hs : Memory.wf s.fmem) (hb : s.blockInFmem = true) :
    Memory.wf (s.writeBlock f).fmem := by
  rw [State.writeBlock_eq]
  refine Memory.writeAll_wf (s.blockCells f) s.fmem hs fun c hc => ?_
  obtain ⟨i, j, rfl⟩ := State.mem_blockCells.1 hc
  exact lt_of_le_of_lt (sampleAddr_le _ _ _ _ _) (of_decide_eq_true hb)

end Sys2Proof.Machine
end

