-- ==== Sys2Proof/Laws/Ops.lean ====
section
/-! SUPPORT. What the shared operations do: the BUSY check, `raise` and `succeed`, and Reset. -/

namespace Sys2Proof.Machine

@[simp] theorem raise_eq (c : Code) (s : State) : raise c s = .next (s.setCmdErr c) := rfl

@[simp] theorem succeed_eq (s : State) : succeed s = .next (s.setCmdErr .ok) := rfl

theorem whenReady_busy {s : State} (h : s.busy = true) (body : State → Host.Outcome State Fault Refusal) :
    whenReady s body = .next s.setOverrun := by
  simp [whenReady, h]

theorem whenReady_idle {s : State} (h : s.busy = false) (body : State → Host.Outcome State Fault Refusal) :
    whenReady s body = body s := by
  simp [whenReady, h]

/-- All that a command can answer: dropped while BUSY = 1, else its own body's answer. -/
theorem whenReady_next {s t : State} {body : State → Host.Outcome State Fault Refusal} (h : whenReady s body = .next t) :
    (s.busy = true ∧ t = s.setOverrun) ∨ (s.busy = false ∧ body s = .next t) := by
  cases hb : s.busy with
  | true =>
    rw [whenReady_busy hb] at h
    exact .inl ⟨rfl, (Host.Outcome.next.inj h).symm⟩
  | false => exact .inr ⟨rfl, whenReady_idle hb body ▸ h⟩

/-- The block at ITER_POS, drawn at a reset in flight, differs from the state before only in FMEM and the counter of draws. -/
theorem State.drawBlock_eq (s : State) :
    s.drawBlock = { s with fmem := s.drawBlock.fmem, draws := s.draws + 64 } := rfl

theorem State.drawBlock_other (s : State) {a : Nat} (h : ∀ i j, a ≠ sampleAddr s.lw s.iterRow s.iterCol i j) :
    s.drawBlock.fmemByte a = s.fmemByte a := by
  unfold State.drawBlock
  rw [State.fmemByte_congr (State.setDraws_fmem _ _), State.writeBlock_other s _ h]

/-- All that a Reset can do: the registers take their reset values, after the block or the byte under way, if any, is drawn. -/
theorem resetEvent_next {s t : State} (h : resetEvent s = .next t) :
    (s.busy = true ∧ s.mode = .embed ∧ s.blockInFmem = true ∧ t = s.drawBlock.resetRegs)
      ∨ (s.busy = true ∧ s.mode = .extract ∧ headerBits s.build ≤ s.bitsDone.toNat
          ∧ payloadAddr s.build s.bitsDone.toNat < 2 ^ 32 ∧ t = s.drawByte.resetRegs)
      ∨ (¬(s.busy = true ∧ s.mode = .embed) ∧ ¬(s.busy = true ∧ s.mode = .extract ∧ headerBits s.build ≤ s.bitsDone.toNat)
          ∧ t = s.resetRegs) := by
  unfold resetEvent at h
  split at h
  · next h1 =>
    split at h
    · next h2 => exact .inl ⟨h1.1, h1.2, h2, (Host.Outcome.next.inj h).symm⟩
    · cases h
  · next h1 =>
    split at h
    · next h2 =>
      split at h
      · next h3 => exact .inr (.inl ⟨h2.1, h2.2.1, h2.2.2, h3, (Host.Outcome.next.inj h).symm⟩)
      · cases h
    · next h2 => exact .inr (.inr ⟨h1, h2, (Host.Outcome.next.inj h).symm⟩)

end Sys2Proof.Machine
end

