-- ==== Sys2Proof/Laws/Framing.lean ====
section
/-! SUPPORT. The framing codec: ranges of its numbers, and equality of byte sequences by their bits. -/

namespace Sys2Proof.Machine

theorem ml_pos (b : Build) : 1 ≤ b.ml := Nat.succ_le_succ (Nat.zero_le _)

theorem ml_le (b : Build) : b.ml ≤ 60 := b.mlPred.isLt

theorem headerBits_eq (b : Build) : headerBits b = 8 * (b.ml + 4) := rfl

theorem headerBits_le (b : Build) : headerBits b ≤ 512 := by
  have := ml_le b
  simp only [headerBits]
  omega

theorem be32_lt (b0 b1 b2 b3 : Byte) : be32 b0 b1 b2 b3 < 2 ^ 32 := by
  have h0 := b0.isLt
  have h1 := b1.isLt
  have h2 := b2.isLt
  have h3 := b3.isLt
  simp only [be32]
  omega

theorem lengthField_lt (b : Build) (bytes : Nat → Byte) : lengthField b bytes < 2 ^ 32 := be32_lt _ _ _ _

/-- Two bytes with the same eight stream bits are equal. -/
theorem byte_eq_of_bits {u v : Byte} (h : ∀ i, i < 8 → u.getLsbD (7 - i) = v.getLsbD (7 - i)) : u = v := by
  refine BitVec.eq_of_getLsbD_eq fun j hj => ?_
  have := h (7 - j) (by omega)
  rwa [show 7 - (7 - j) = j by omega] at this

theorem markerMatchBits_le (b : Build) (bytes : Nat → Byte) : markerMatchBits b bytes ≤ 8 * b.ml := by
  unfold markerMatchBits
  cases h : (List.range (8 * b.ml)).find? fun m => seqBit bytes m != seqBit (Build.markerByte b) m with
  | none => exact le_rfl
  | some m => exact (List.mem_range.1 (List.mem_of_find?_eq_some h)).le

/-- A byte sequence that agrees with another on the header parses alike. -/
theorem lengthField_congr (b : Build) {f g : Nat → Byte} (h : ∀ k, k < b.ml + 4 → f k = g k) : lengthField b f = lengthField b g := by
  simp only [lengthField, h b.ml (by omega), h (b.ml + 1) (by omega), h (b.ml + 2) (by omega), h (b.ml + 3) (by omega)]

theorem seqBit_congr {f g : Nat → Byte} {m n : Nat} (h : ∀ k, k < n → f k = g k) (hm : m < 8 * n) : seqBit f m = seqBit g m := by
  simp only [seqBit, h (m / 8) (by omega)]

theorem find?_congr {α : Type} {p q : α → Bool} : ∀ {l : List α}, (∀ x ∈ l, p x = q x) → l.find? p = l.find? q
  | [], _ => rfl
  | x :: l, h => by
    simp only [List.find?_cons, h x List.mem_cons_self, find?_congr fun y hy => h y (List.mem_cons_of_mem _ hy)]

theorem markerMatchBits_congr (b : Build) {f g : Nat → Byte} (h : ∀ k, k < b.ml → f k = g k) :
    markerMatchBits b f = markerMatchBits b g := by
  have e := find?_congr (l := List.range (8 * b.ml)) (p := fun m => seqBit f m != seqBit (Build.markerByte b) m)
    (q := fun m => seqBit g m != seqBit (Build.markerByte b) m) fun m hm => by
      simp only [seqBit_congr h (List.mem_range.1 hm)]
  simp only [markerMatchBits, e]

/-! The four answers of ParseFn (40_framing.md R137). -/

theorem parseFn_short {b : Build} (bytes : Nat → Byte) {P : Nat} (h : P < b.ml + 4) :
    parseFn b bytes P = .incompleteHeader (8 * (b.ml + 4)) (8 * P) := by
  simp only [parseFn, h, if_true]

theorem parseFn_mismatch {b : Build} {bytes : Nat → Byte} {P : Nat} (h : b.ml + 4 ≤ P)
    (hm : markerMatchBits b bytes < 8 * b.ml) :
    parseFn b bytes P = .markerMismatch (8 * b.ml) (markerMatchBits b bytes) := by
  simp only [parseFn, Nat.not_lt.2 h, hm, if_true, if_false]

theorem parseFn_truncated {b : Build} {bytes : Nat → Byte} {P : Nat} (h : b.ml + 4 ≤ P)
    (hm : markerMatchBits b bytes = 8 * b.ml) (hl : P - (b.ml + 4) < lengthField b bytes) :
    parseFn b bytes P = .truncatedPayload (8 * (b.ml + 4 + lengthField b bytes)) (8 * P) := by
  simp only [parseFn, Nat.not_lt.2 h, hm, hl, lt_irrefl, if_true, if_false]

theorem parseFn_payload {b : Build} {bytes : Nat → Byte} {P : Nat} (h : b.ml + 4 ≤ P)
    (hm : markerMatchBits b bytes = 8 * b.ml) (hl : lengthField b bytes ≤ P - (b.ml + 4)) :
    parseFn b bytes P = .payload (b.ml + 4) (lengthField b bytes) := by
  simp only [parseFn, Nat.not_lt.2 h, hm, Nat.not_lt.2 hl, lt_irrefl, if_false]

end Sys2Proof.Machine
end

