-- ==== Sys2Proof/Laws/Iterator.lean ====
section
/-! SUPPORT. The iterator: First and Next in each of their cases. -/

namespace Sys2Proof.Machine

theorem iterFirst_eq (w h : Half) : iterFirst w h = (decide (8 ≤ w.toNat ∧ 8 ≤ h.toNat), 0, 0) := rfl

theorem iterStep_right {w col : Half} (h row : Half) (hc : col.toNat + 16 ≤ w.toNat) :
    iterStep w h row col = (true, row, col + 8) := by
  simp [iterStep, hc]

theorem iterStep_down {w h row col : Half} (hc : w.toNat < col.toNat + 16) (hr : row.toNat + 16 ≤ h.toNat) :
    iterStep w h row col = (true, row + 8, 0) := by
  simp [iterStep, Nat.not_le.2 hc, hr]

theorem iterStep_end {w h row col : Half} (hc : w.toNat < col.toNat + 16) (hr : h.toNat < row.toNat + 16) :
    iterStep w h row col = (false, row, col) := by
  simp [iterStep, Nat.not_le.2 hc, Nat.not_le.2 hr]

/-- All that Next can answer. -/
theorem iterStep_cases (w h row col : Half) :
    (col.toNat + 16 ≤ w.toNat ∧ iterStep w h row col = (true, row, col + 8))
      ∨ (w.toNat < col.toNat + 16 ∧ row.toNat + 16 ≤ h.toNat ∧ iterStep w h row col = (true, row + 8, 0))
      ∨ (w.toNat < col.toNat + 16 ∧ h.toNat < row.toNat + 16 ∧ iterStep w h row col = (false, row, col)) := by
  rcases Nat.lt_or_ge w.toNat (col.toNat + 16) with hc | hc
  · rcases Nat.lt_or_ge h.toNat (row.toNat + 16) with hr | hr
    · exact .inr (.inr ⟨hc, hr, iterStep_end hc hr⟩)
    · exact .inr (.inl ⟨hc, hr, iterStep_down hc hr⟩)
  · exact .inl ⟨hc, iterStep_right h row hc⟩

/-- Eight more does not wrap while another block fits. -/
theorem add_eight_toNat {x : Half} {n : Half} (h : x.toNat + 16 ≤ n.toNat) : (x + 8).toNat = x.toNat + 8 := by
  have := n.isLt
  rw [BitVec.toNat_add, show (8 : Half).toNat = 8 from rfl]
  omega

end Sys2Proof.Machine
end

