-- ==== Sys2Proof/Laws/Blocks.lean ====
section
/-! SUPPORT. The frame commands' and block steps' shared operations, and all that a block step can answer. -/

namespace Sys2Proof.Machine

theorem State.countFrame_eq (s : State) : s.countFrame = { s with frameCnt := s.frameCnt + 1 } := rfl

/-- A frame begins busy exactly when it has a block. -/
theorem State.beginFrame_eq (s : State) :
    s.beginFrame = { s with
      iterValid := decide (8 ≤ s.lw.toNat ∧ 8 ≤ s.lh.toNat), iterRow := 0, iterCol := 0,
      busy := decide (8 ≤ s.lw.toNat ∧ 8 ≤ s.lh.toNat) } := rfl

theorem State.advance_eq (s : State) :
    s.advance = { s with
      iterValid := (iterStep s.lw s.lh s.iterRow s.iterCol).1, iterRow := (iterStep s.lw s.lh s.iterRow s.iterCol).2.1,
      iterCol := (iterStep s.lw s.lh s.iterRow s.iterCol).2.2 } := rfl

/-- All that an embed block step can answer (43_embed.md R214): with `n` the next position and `e` the new EXHAUSTED. -/
theorem embedBlock_next {x : Transform} {s t : State} (h : embedBlock x s = .next t) :
    s.blockInFmem = true ∧ payloadAddr s.build s.bitsDone.toNat < 2 ^ 32
      ∧ t = { s with
          fmem := (s.writeBlock (embeddedBlock x s s.cursorBit)).fmem, bitsDone := s.bitsDone + 1,
          exhausted := s.exhausted || s.bitsDone + 1 == s.bitsReq,
          iterValid := (iterStep s.lw s.lh s.iterRow s.iterCol).1, iterRow := (iterStep s.lw s.lh s.iterRow s.iterCol).2.1,
          iterCol := (iterStep s.lw s.lh s.iterRow s.iterCol).2.2,
          busy := s.busy && !((s.exhausted || s.bitsDone + 1 == s.bitsReq) || !(iterStep s.lw s.lh s.iterRow s.iterCol).1) } := by
  unfold embedBlock at h
  split at h
  · next hb =>
    split at h
    · next hp =>
      refine ⟨hb, hp, ?_⟩
      rw [← Host.Outcome.next.inj h]
      rfl
    · cases h
  · cases h

/-- An embed block step faults only on an address outside its memory. -/
theorem embedBlock_answers (x : Transform) {s : State} (hb : s.blockInFmem = true)
    (hp : payloadAddr s.build s.bitsDone.toNat < 2 ^ 32) : ∃ t, embedBlock x s = .next t := by
  exact ⟨_, by rw [embedBlock, if_pos hb, if_pos hp]⟩

/-- Appending a bit to the header (44_extract.md R243). -/
theorem State.appendBit_header {s : State} (b : Bool) (h : s.bitsDone.toNat < headerBits s.build) :
    s.appendBit b = { s with
      hdr := s.hdr.setIfInBounds (s.bitsDone.toNat / 8) (shiftIn (s.hdrByte (s.bitsDone.toNat / 8)) b),
      bitsDone := s.bitsDone + 1 } := by
  simp [State.appendBit, h]

/-- Appending the eighth bit of a payload byte. -/
theorem State.appendBit_store {s : State} (b : Bool) (h : headerBits s.build ≤ s.bitsDone.toNat)
    (h7 : (s.bitsDone.toNat - headerBits s.build) % 8 = 7) :
    s.appendBit b = { s with
      pmem := Memory.write s.pmem (payloadAddr s.build s.bitsDone.toNat) (shiftIn s.byteSr b), byteSr := shiftIn s.byteSr b,
      bitsDone := s.bitsDone + 1 } := by
  simp [State.appendBit, Nat.not_lt.2 h, h7, State.setPmem]

/-- Appending any other bit of a payload byte. -/
theorem State.appendBit_shift {s : State} (b : Bool) (h : headerBits s.build ≤ s.bitsDone.toNat)
    (h7 : (s.bitsDone.toNat - headerBits s.build) % 8 ≠ 7) :
    s.appendBit b = { s with byteSr := shiftIn s.byteSr b, bitsDone := s.bitsDone + 1 } := by
  simp [State.appendBit, Nat.not_lt.2 h, h7]

/-- Appending a bit changes only the accumulator and its length. -/
theorem State.appendBit_frame (s : State) (b : Bool) :
    s.appendBit b = { s with
      hdr := (s.appendBit b).hdr, pmem := (s.appendBit b).pmem, byteSr := (s.appendBit b).byteSr, bitsDone := s.bitsDone + 1 } := by
  rcases Nat.lt_or_ge s.bitsDone.toNat (headerBits s.build) with h | h
  · rw [State.appendBit_header b h]
  · rcases eq_or_ne ((s.bitsDone.toNat - headerBits s.build) % 8) 7 with h7 | h7
    · rw [State.appendBit_store b h h7]
    · rw [State.appendBit_shift b h h7]

/-- The header bytes after one is set. -/
theorem State.hdrByte_set (s : State) (v : Byte) {k : Nat} (n : Nat) (hk : k < 64) :
    State.hdrByte { s with hdr := s.hdr.setIfInBounds k v } n = if k = n then v else s.hdrByte n := by
  by_cases h : k = n
  · subst h
    simp [State.hdrByte, hk]
  · simp [State.hdrByte, Vector.getElem?_setIfInBounds_ne, h]

/-- All that the checks at the end of an extract block step can answer (44_extract.md R244..R247). -/
theorem State.checkHeader_next {s t : State} (h : s.checkHeader = .next t) :
    (s.hdrValid = false ∧ s.bitsDone.toNat = headerBits s.build ∧ markerMatchBits s.build s.hdrByte < 8 * s.build.ml
        ∧ t = (s.markerFailure (markerMatchBits s.build s.hdrByte)).setCmdErr .markerMismatch)
      ∨ (s.hdrValid = false ∧ s.bitsDone.toNat = headerBits s.build ∧ markerMatchBits s.build s.hdrByte = 8 * s.build.ml
        ∧ t = s.acceptHeader.completeOrWait)
      ∨ (¬(s.hdrValid = false ∧ s.bitsDone.toNat = headerBits s.build) ∧ t = s.completeOrWait) := by
  unfold State.checkHeader at h
  split at h
  · next h1 =>
    simp only at h
    split at h
    · next h2 => exact .inl ⟨h1.1, h1.2, h2, (Host.Outcome.next.inj h).symm⟩
    · next h2 =>
      exact .inr (.inl ⟨h1.1, h1.2, le_antisymm (markerMatchBits_le _ _) (not_lt.1 h2), (Host.Outcome.next.inj h).symm⟩)
  · next h1 => exact .inr (.inr ⟨h1, (Host.Outcome.next.inj h).symm⟩)

theorem State.checkHeader_answers (s : State) : ∃ t, s.checkHeader = .next t := by
  unfold State.checkHeader
  split
  · simp only
    split
    · exact ⟨_, rfl⟩
    · exact ⟨_, rfl⟩
  · exact ⟨_, rfl⟩

/-- The two ways a step that did not fail leaves the run. -/
theorem State.completeOrWait_cases (s : State) :
    (s.hdrValid = true ∧ s.bitsDone = s.bitsReq
        ∧ s.completeOrWait = { s with
            run := .done, resLen := BitVec.ofNat 32 ((s.bitsReq.toNat - headerBits s.build) / 8), resOff := 0, busy := false })
      ∨ (¬(s.hdrValid = true ∧ s.bitsDone = s.bitsReq) ∧ s.completeOrWait = { s with busy := s.busy && s.iterValid }) := by
  by_cases h : s.hdrValid = true ∧ s.bitsDone = s.bitsReq
  · exact .inl ⟨h.1, h.2, if_pos h⟩
  · exact .inr ⟨h, if_neg h⟩

/-- All that an extract block step can answer (44_extract.md R243). -/
theorem extractBlock_next {x : Transform} {s t : State} (h : extractBlock x s = .next t) :
    s.blockInFmem = true ∧ (s.storesByte = true → payloadAddr s.build s.bitsDone.toNat < 2 ^ 32)
      ∧ (s.appendBit (extractedBit x s)).advance.checkHeader = .next t := by
  unfold extractBlock at h
  split at h
  · next hb =>
    split at h
    · cases h
    · next hp => exact ⟨hb, fun hs => not_le.1 fun hl => hp ⟨hs, hl⟩, h⟩
  · cases h

/-- An extract block step faults only on an address outside its memory. -/
theorem extractBlock_answers (x : Transform) {s : State} (hb : s.blockInFmem = true)
    (hp : payloadAddr s.build s.bitsDone.toNat < 2 ^ 32) : ∃ t, extractBlock x s = .next t := by
  obtain ⟨t, ht⟩ := (s.appendBit (extractedBit x s)).advance.checkHeader_answers
  exact ⟨t, by rw [extractBlock, if_pos hb, if_neg fun h => Nat.not_le.2 hp h.2, ht]⟩

/-- A block inside the latched frame has all its addresses in FMEM (20_memory.md R71). -/
theorem State.blockInFmem_of_inside {s : State} (hr : s.iterRow.toNat + 8 ≤ s.lh.toNat) (hc : s.iterCol.toNat + 8 ≤ s.lw.toNat) :
    s.blockInFmem = true := by
  have hw := s.lw.isLt
  have hh := s.lh.isLt
  have h1 : (s.iterRow.toNat + 7) * s.lw.toNat ≤ 65534 * 65535 := Nat.mul_le_mul (by omega) (by omega)
  refine decide_eq_true ?_
  change (s.iterRow.toNat + 7) * s.lw.toNat + (s.iterCol.toNat + 7) < 2 ^ 32
  omega

/-- The checks at the end of an extract block step leave the memories, the build, the latches, MODE and OVERRUN alone. -/
theorem State.checkHeader_frame {s t : State} (h : s.checkHeader = .next t) :
    t.fmem = s.fmem ∧ t.pmem = s.pmem ∧ t.build = s.build ∧ t.overrun = s.overrun ∧ t.mode = s.mode ∧ t.lq = s.lq
      ∧ t.lcrow = s.lcrow ∧ t.lccol = s.lccol ∧ t.lw = s.lw ∧ t.lh = s.lh ∧ t.llen = s.llen := by
  rcases State.checkHeader_next h with ⟨-, -, -, rfl⟩ | ⟨-, -, -, rfl⟩ | ⟨-, rfl⟩
  · exact ⟨rfl, rfl, rfl, rfl, rfl, rfl, rfl, rfl, rfl, rfl, rfl⟩
  · rcases State.completeOrWait_cases (State.acceptHeader s) with ⟨-, -, e⟩ | ⟨-, e⟩ <;> rw [e] <;>
      exact ⟨rfl, rfl, rfl, rfl, rfl, rfl, rfl, rfl, rfl, rfl, rfl⟩
  · rcases State.completeOrWait_cases s with ⟨-, -, e⟩ | ⟨-, e⟩ <;> rw [e] <;>
      exact ⟨rfl, rfl, rfl, rfl, rfl, rfl, rfl, rfl, rfl, rfl, rfl⟩

/-- Appending a bit writes PMEM only when it completes a payload byte. -/
theorem State.appendBit_pmem (s : State) (b : Bool) :
    (s.appendBit b).pmem = s.pmem
      ∨ s.storesByte = true
        ∧ (s.appendBit b).pmem = Memory.write s.pmem (payloadAddr s.build s.bitsDone.toNat) (shiftIn s.byteSr b) := by
  rcases Nat.lt_or_ge s.bitsDone.toNat (headerBits s.build) with h | h
  · exact .inl (by rw [State.appendBit_header b h])
  · rcases eq_or_ne ((s.bitsDone.toNat - headerBits s.build) % 8) 7 with h7 | h7
    · exact .inr ⟨by simp [State.storesByte, h, h7], by rw [State.appendBit_store b h h7]⟩
    · exact .inl (by rw [State.appendBit_shift b h h7])

end Sys2Proof.Machine
end

