-- ==== Sys2Proof/Laws/Commands.lean ====
section
/-! SUPPORT. The dispatch arm by arm, and what every command does while BUSY = 1. -/

namespace Sys2Proof.Machine

@[simp] theorem exec_nop (s : State) : exec .nop s = execNop s := rfl
@[simp] theorem exec_qenc (b : Bool) (s : State) : exec (.qenc b) s = execQenc b s := rfl
@[simp] theorem exec_qdec (s : State) : exec .qdec s = execQdec s := rfl
@[simp] theorem exec_iterReset (s : State) : exec .iterReset s = execIterReset s := rfl
@[simp] theorem exec_iterNext (s : State) : exec .iterNext s = execIterNext s := rfl
@[simp] theorem exec_serBit (s : State) : exec .serBit s = execSerBit s := rfl
@[simp] theorem exec_parse (s : State) : exec .parse s = execParse s := rfl
@[simp] theorem exec_embStart (s : State) : exec .embStart s = execEmbStart s := rfl
@[simp] theorem exec_embFrame (s : State) : exec .embFrame s = execEmbFrame s := rfl
@[simp] theorem exec_embEnd (s : State) : exec .embEnd s = execEmbEnd s := rfl
@[simp] theorem exec_extStart (s : State) : exec .extStart s = execExtStart s := rfl
@[simp] theorem exec_extFrame (s : State) : exec .extFrame s = execExtFrame s := rfl
@[simp] theorem exec_extEnd (s : State) : exec .extEnd s = execExtEnd s := rfl
@[simp] theorem exec_abort (s : State) : exec .abort s = execAbort s := rfl

/-- Every command begins with the BUSY check (45_system.md R274). -/
theorem exec_ready (i : Instr) : ∃ body, ∀ s, exec i s = whenReady s body := by
  cases i <;> exact ⟨_, fun _ => by unfold exec; rfl⟩

/-- A command issued while BUSY = 1 is dropped. -/
theorem exec_busy (i : Instr) {s : State} (h : s.busy = true) : exec i s = .next s.setOverrun := by
  obtain ⟨body, e⟩ := exec_ready i
  rw [e, whenReady_busy h]

/-- No command writes a memory, the build or the list of events. -/
theorem exec_memory {i : Instr} {s t : State} (h : exec i s = .next t) :
    t.fmem = s.fmem ∧ t.pmem = s.pmem ∧ t.build = s.build ∧ t.inputs = s.inputs := by
  cases i <;>
    simp only [exec_nop, exec_abort, exec_qenc, exec_qdec, exec_iterReset, exec_iterNext, exec_embFrame, exec_extFrame, exec_serBit,
      exec_parse, exec_embStart, exec_extStart, exec_embEnd, exec_extEnd] at h <;>
    obtain ⟨-, rfl⟩ | ⟨-, h⟩ := whenReady_next h
  all_goals try exact ⟨rfl, rfl, rfl, rfl⟩
  all_goals try simp only [whenNoActiveRun, State.applyParse] at h
  all_goals repeat' split at h
  all_goals exact Host.Outcome.next.inj h ▸ ⟨rfl, rfl, rfl, rfl⟩

end Sys2Proof.Machine
end

