-- ==== Sys2Proof/Laws/HostBus.lean ====
section
/-! SUPPORT. What a step of the machine can be, by the event it takes; the Host's accesses; the Core's turns. -/

namespace Sys2Proof.Machine

theorem step_eq (s : State) : step s = machineStep Config.transform s := rfl

/-- With no event to come, the Core has its turn. -/
theorem machineStep_nil (x : Transform) {s : State} (h : s.inputs = []) : machineStep x s = coreTurn x s := by
  simp [machineStep, h]

/-- An event that has a move leaves the list and happens. -/
theorem machineStep_event (x : Transform) {s : State} {e : Event} {rest : List Event} (h : s.inputs = e :: rest)
    (hm : s.hasMove e = true) : machineStep x s = eventStep x e (s.setInputs rest) := by
  simp [machineStep, h, hm]

/-- An event that has no move stays, and the Core has its turn. -/
theorem machineStep_no_move (x : Transform) {s : State} {e : Event} {rest : List Event} (h : s.inputs = e :: rest)
    (hm : s.hasMove e = false) : machineStep x s = coreTurn x s := by
  simp [machineStep, h, hm]

/-- All that a step can be: a turn of the Core on the state as it is, or one event that has a move, on the state with it taken. -/
theorem machineStep_cases (x : Transform) (s : State) :
    machineStep x s = coreTurn x s
      ∨ ∃ e rest, s.inputs = e :: rest ∧ s.hasMove e = true ∧ machineStep x s = eventStep x e (s.setInputs rest) := by
  cases h : s.inputs with
  | nil => exact .inl (machineStep_nil x h)
  | cons e rest =>
    cases hm : s.hasMove e with
    | true => exact .inr ⟨e, rest, rfl, hm, machineStep_event x h hm⟩
    | false => exact .inl (machineStep_no_move x h hm)

/-- What may happen next does not depend on the events after it. -/
@[simp] theorem State.setInputs_hasMove (s : State) (es : List Event) (e : Event) : (s.setInputs es).hasMove e = s.hasMove e := by
  cases e <;> rfl

/-- The FMEM accesses of the Host without a move are those inside a busy frame (20_memory.md R83). -/
theorem State.hostMayUseFmem_false {s : State} {a : Word} :
    s.hostMayUseFmem a = false ↔ s.busy = true ∧ a.toNat < s.lw.toNat * s.lh.toNat := by
  simp [State.hostMayUseFmem]

/-- A PMEM read of the Host has no move exactly in a busy extract run (20_memory.md R83). -/
theorem State.hostMayReadPmem_false {s : State} : s.hostMayReadPmem = false ↔ s.busy = true ∧ s.mode = .extract := by
  simp [State.hostMayReadPmem]

/-- The PMEM writes of the Host without a move (20_memory.md R83, R85). -/
theorem State.hostMayWritePmem_false {s : State} {a : Word} :
    s.hostMayWritePmem a = false ↔
      (s.busy = true ∧ s.mode = .extract) ∨ (s.mode = .embed ∧ (s.busy = true ∨ s.run = .active) ∧ a.toNat < s.llen.toNat) := by
  rw [← State.hostMayReadPmem_false]
  cases hr : s.hostMayReadPmem <;> cases hb : s.busy <;> simp [State.hostMayWritePmem, hr, hb, and_assoc]

/-- A busy Core's turn is a block step. -/
theorem coreTurn_next {x : Transform} {s t : State} (h : coreTurn x s = .next t) :
    (s.busy = false ∧ t = s) ∨ (s.busy = true ∧ s.mode = .embed ∧ embedBlock x s = .next t)
      ∨ (s.busy = true ∧ s.mode = .extract ∧ extractBlock x s = .next t) := by
  unfold coreTurn at h
  split at h
  · next hb =>
    unfold coreStep at h
    split at h
    · next hm => exact .inr (.inl ⟨hb, hm, h⟩)
    · next hm => exact .inr (.inr ⟨hb, hm, h⟩)
    · cases h
  · next hb => exact .inl ⟨by simpa using hb, (Host.Outcome.next.inj h).symm⟩

/-- All that a register write can answer. -/
theorem regWrite_next {off : BitVec 12} {width : Nat} {v : Word} {s t : State} (h : regWrite off width v s = .next t) :
    registerAccess off width = true
      ∧ ((off.toNat = cmdOffset ∧ cmdWrite v s = .next t)
        ∨ (off.toNat ≠ cmdOffset ∧ ((∃ r, regAt off.toNat = some r ∧ t = s.writeReg r v) ∨ (regAt off.toNat = none ∧ t = s)))) := by
  unfold regWrite at h
  split at h
  · next ha =>
    refine ⟨ha, ?_⟩
    split at h
    · next ho => exact .inl ⟨ho, h⟩
    · next ho =>
      refine .inr ⟨ho, ?_⟩
      split at h
      · next r hr => exact .inl ⟨r, hr, (Host.Outcome.next.inj h).symm⟩
      · next hr => exact .inr ⟨hr, (Host.Outcome.next.inj h).symm⟩
  · cases h

/-- All that a write to CMD can be. -/
theorem cmdWrite_cases (w : Word) (s : State) :
    (∃ i, decode w = .instr i ∧ cmdWrite w s = exec i s)
      ∨ (∃ why, decode w = .illegal why ∧ cmdWrite w s = illegalCommand s) := by
  cases h : decode w with
  | instr i => exact .inl ⟨i, rfl, by simp [cmdWrite, h]⟩
  | illegal why => exact .inr ⟨why, rfl, by simp [cmdWrite, h]⟩

/-- A register write that is no command changes only live registers. -/
theorem State.writeReg_live (s : State) (r : Reg) (v : Word) :
    s.writeReg r v = { s with
      q := (s.writeReg r v).q, crow := (s.writeReg r v).crow, ccol := (s.writeReg r v).ccol, frameW := (s.writeReg r v).frameW,
      frameH := (s.writeReg r v).frameH, payLen := (s.writeReg r v).payLen, parseLen := (s.writeReg r v).parseLen,
      coefIn := (s.writeReg r v).coefIn, idx := (s.writeReg r v).idx } := by
  cases r <;> rfl

/-- The register at an offset is one of the nine that a write changes, at its own offset, or a write leaves the state alone. -/
theorem regAt_writable {n : Nat} {r : Reg} (h : regAt n = some r) :
    n ∈ [0x008, 0x00C, 0x010, 0x014, 0x018, 0x01C, 0x020, 0x028, 0x02C] ∨ ∀ (s : State) (v : Word), s.writeReg r v = s := by
  unfold regAt at h
  split at h
  all_goals first
    | exact .inl (by decide)
    | (obtain rfl := Option.some.inj h; exact .inr fun _ _ => rfl)
    | skip
  split at h
  · obtain rfl := Option.some.inj h
    exact .inr fun _ _ => rfl
  · split at h
    · obtain rfl := Option.some.inj h
      exact .inr fun _ _ => rfl
    · cases h

/-- All that a step can do, as a rule for properties: what every elementary change keeps, a step keeps. -/
theorem step_keeps {P : State → Prop} (hinputs : ∀ s es, P s → P (s.setInputs es)) (hread : ∀ s v, P s → P (s.setRdData v))
    (hlive : ∀ s r v, P s → P (s.writeReg r v))
    (hfmem : ∀ (s : State) (a : Word) (v : Byte), P s → s.hostMayUseFmem a = true → P (s.setFmem a.toNat v))
    (hpmem : ∀ (s : State) (a : Word) (v : Byte), P s → s.hostMayWritePmem a = true → P (s.setPmem a.toNat v))
    (hreset : ∀ s t, P s → resetEvent s = .next t → P t) (hillegal : ∀ s c, P s → s.busy = false → P (s.setCmdErr c))
    (hoverrun : ∀ s, P s → P s.setOverrun) (hexec : ∀ i s t, P s → s.busy = false → exec i s = .next t → P t)
    (hembed : ∀ x s t, P s → s.busy = true → s.mode = .embed → embedBlock x s = .next t → P t)
    (hextract : ∀ x s t, P s → s.busy = true → s.mode = .extract → extractBlock x s = .next t → P t)
    {s t : State} (hs : P s) (h : step s = .next t) : P t := by
  have hcore : ∀ x s t, P s → coreTurn x s = .next t → P t := by
    intro x s t hs h
    rcases coreTurn_next h with ⟨-, rfl⟩ | ⟨hb, hm, h⟩ | ⟨hb, hm, h⟩
    · exact hs
    · exact hembed x s t hs hb hm h
    · exact hextract x s t hs hb hm h
  rw [step_eq] at h
  rcases machineStep_cases Config.transform s with e | ⟨ev, rest, -, hm, e⟩
  · exact hcore _ s t hs (e ▸ h)
  · rw [e] at h
    rw [← State.setInputs_hasMove s rest ev] at hm
    replace hs := hinputs s rest hs
    generalize s.setInputs rest = y at *
    cases ev with
    | coreTurn => exact hcore _ y t hs h
    | wait => exact Host.Outcome.next.inj h ▸ hread _ _ hs
    | reset => exact hreset y t hs h
    | regWrite off width v =>
      rcases regWrite_next h with ⟨-, ⟨-, h⟩ | ⟨-, ⟨r, -, rfl⟩ | ⟨-, rfl⟩⟩⟩
      · rcases cmdWrite_cases v y with ⟨i, -, e⟩ | ⟨w, -, e⟩ <;> rw [e] at h
        · cases hb : y.busy with
          | true => exact Host.Outcome.next.inj (exec_busy i hb ▸ h) ▸ hoverrun _ hs
          | false => exact hexec i y t hs hb h
        · rcases whenReady_next h with ⟨-, rfl⟩ | ⟨hb, h⟩
          · exact hoverrun _ hs
          · exact Host.Outcome.next.inj h ▸ hillegal _ _ hs hb
      · exact hlive _ _ _ hs
      · exact hs
    | regRead off width =>
      simp only [eventStep, regRead] at h
      split at h
      · exact Host.Outcome.next.inj h ▸ hread _ _ hs
      · cases h
    | fmemWrite a v => exact Host.Outcome.next.inj h ▸ hfmem _ _ _ hs hm
    | fmemRead a => exact Host.Outcome.next.inj h ▸ hread _ _ hs
    | pmemWrite a v => exact Host.Outcome.next.inj h ▸ hpmem _ _ _ hs hm
    | pmemRead a => exact Host.Outcome.next.inj h ▸ hread _ _ hs

end Sys2Proof.Machine
end

