-- ==== Sys2Proof/Laws/PerInstr.lean ====
section
/-! SUPPORT. The family Encoding: for each command, its word is well formed as 30_encoding.md R100..R105 asks: RSVD = 0, B = 0 unless the
command is QENC, and the OP field is one the map of R104 gives this very command. -/

namespace Sys2Proof.Laws.Encoding

def Statement (i : Instr) : Prop :=
  i.wellFormed = true ∧ rsvdField (encode i) = 0 ∧ (bField (encode i) = true → i = .qenc true)
    ∧ instrOfOp (opField (encode i)) (bField (encode i)) = some i

theorem nop : Statement .nop := by unfold Statement; decide
theorem qenc : ∀ b, Statement (.qenc b) := by unfold Statement; decide
theorem qdec : Statement .qdec := by unfold Statement; decide
theorem iterReset : Statement .iterReset := by unfold Statement; decide
theorem iterNext : Statement .iterNext := by unfold Statement; decide
theorem serBit : Statement .serBit := by unfold Statement; decide
theorem parse : Statement .parse := by unfold Statement; decide
theorem embStart : Statement .embStart := by unfold Statement; decide
theorem embFrame : Statement .embFrame := by unfold Statement; decide
theorem embEnd : Statement .embEnd := by unfold Statement; decide
theorem extStart : Statement .extStart := by unfold Statement; decide
theorem extFrame : Statement .extFrame := by unfold Statement; decide
theorem extEnd : Statement .extEnd := by unfold Statement; decide
theorem abort : Statement .abort := by unfold Statement; decide

end Sys2Proof.Laws.Encoding
end

