-- ==== Sys2Proof/Laws/Qim.lean ====
section
/-! SUPPORT. The arithmetic of the bit codec: what a legal step is, and Round as the floor or the floor plus one. -/

namespace Sys2Proof.Machine

theorem legalStep_iff (q : Word) : legalStep q = true ↔ q.toNat % 2 = 0 ∧ 2 ≤ q.toNat ∧ q.toNat ≤ 2 ^ 30 := by
  simp [legalStep, and_assoc]

/-- Below the half, Round is the floor. -/
theorem roundDiv_of_lt (tie : RoundTie) {n d : Int} (h : 2 * (n % d) < d) : roundDiv tie n d = n / d := by
  simp [roundDiv, h]

/-- Above the half, Round is the floor plus one. -/
theorem roundDiv_of_gt (tie : RoundTie) {n d : Int} (h : d < 2 * (n % d)) : roundDiv tie n d = n / d + 1 := by
  simp [roundDiv, h, not_lt.2 h.le]

/-- At the half, the tie rule decides. -/
theorem roundDiv_of_eq (tie : RoundTie) {n d : Int} (h : 2 * (n % d) = d) :
    roundDiv tie n d = if tieUp tie (n / d) then n / d + 1 else n / d := by
  simp [roundDiv, h]

/-- Round is the floor or the floor plus one, and its remainder lies within half a divisor. -/
theorem roundDiv_cases (tie : RoundTie) (n d : Int) :
    (roundDiv tie n d = n / d ∧ 2 * (n % d) ≤ d) ∨ (roundDiv tie n d = n / d + 1 ∧ d ≤ 2 * (n % d)) := by
  rcases lt_trichotomy (2 * (n % d)) d with h | h | h
  · exact .inl ⟨roundDiv_of_lt tie h, h.le⟩
  · rw [roundDiv_of_eq tie h]
    split
    · exact .inr ⟨rfl, h.ge⟩
    · exact .inl ⟨rfl, h.le⟩
  · exact .inr ⟨roundDiv_of_gt tie h, h.le⟩

/-- Round of an exact multiple. -/
theorem roundDiv_mul (tie : RoundTie) (k : Int) {d : Int} (hd : 0 < d) : roundDiv tie (k * d) d = k := by
  rw [roundDiv_of_lt tie (by simpa using hd), Int.mul_ediv_cancel _ hd.ne']

end Sys2Proof.Machine
end

