-- ==== Sys2Proof/Machine/HostProgram.lean ====
section
/-! DEFINITION. The notation of Host programs (30_encoding.md R120, R121): each form is the list of the Host's events it stands for. -/

namespace Sys2Proof.Machine

/-- `wr REG, v` at the register's offset. -/
def wr (off : BitVec 12) (v : Word) : List Event := [.regWrite off 32 v]

/-- `rd REG` at the register's offset. -/
def rd (off : BitVec 12) : List Event := [.regRead off 32]

/-- `cmd MNEM` and `cmd QENC, b`. -/
def cmd (i : Instr) : List Event := wr 0x000 (encode i)

/-- `wr64 IDX, v`. -/
def wrIdx (v : DWord) : List Event := wr 0x028 (v.extractLsb' 0 32) ++ wr 0x02C (v.extractLsb' 32 32)

/-- `rd64 X`, at the offset of X_LO. -/
def rd64 (off : BitVec 12) : List Event := rd off ++ rd (off + 4)

/-- One write per byte, from an address upward. -/
def loadFrom (wrByte : Word → Byte → Event) : Nat → List Byte → List Event
  | _, [] => []
  | a, v :: rest => wrByte (BitVec.ofNat 32 a) v :: loadFrom wrByte (a + 1) rest

/-- `fload img`. -/
def fload (img : List Byte) : List Event := loadFrom .fmemWrite 0 img

/-- `pload bytes`. -/
def pload (bytes : List Byte) : List Event := loadFrom .pmemWrite 0 bytes

/-- `frame_embed img`. -/
def frameEmbed (img : List Byte) : List Event := fload img ++ cmd .embFrame ++ [.wait]

/-- `frame_extract img`. -/
def frameExtract (img : List Byte) : List Event := fload img ++ cmd .extFrame ++ [.wait]

end Sys2Proof.Machine
end

