-- ==== Sys2Proof/Tests/Slice0.lean ====
section
/-! SUPPORT. The model's own tests. Every expected value is one of spec/ (95_test_vectors.md, named at each test) or is written out by
hand from an encoding or rule of spec/. -/

namespace Sys2Proof.Tests

open Sys2Proof.Machine

/-- TM11 (95_test_vectors.md), padded to the marker's storage. -/
def tm11 : Vector Byte 60 :=
  ⟨#[0x51, 0x49, 0x4D, 0x2D, 0x4D, 0x41, 0x52, 0x4B, 0x45, 0x52, 0x31] ++ Array.replicate 49 0, by decide⟩

/-- TM1 (95_test_vectors.md). -/
def tm1 : Vector Byte 60 := ⟨#[0xA5] ++ Array.replicate 59 0, by decide⟩

def build11 : Build := { mlPred := 10, frac := 16, roundTie := .halfEven, marker := tm11 }

def build1 : Build := { mlPred := 0, frac := 16, roundTie := .halfEven, marker := tm1 }

/-- After power-on, ML = 11, F = 16, HALF_EVEN. -/
def base : State := State.powerOn build11

/-- After power-on, ML = 1, F = 16, HALF_EVEN. -/
def base1 : State := State.powerOn build1

/-- A part of the next state, if there is one. -/
def after {α : Type} (o : Host.Outcome State Fault Refusal) (f : State → α) : Option α :=
  match o with
  | .next t => some (f t)
  | .fault _ => none
  | .refused _ => none

/-- Bytes at rising addresses from a start. -/
def bytesAt : Nat → List Byte → Memory
  | _, [] => []
  | a, v :: rest => (a, v) :: bytesAt (a + 1) rest

/-! ### Decoding: words written out from 30_encoding.md R104, R105 -/

theorem test_decode_nop : decode 0x00000000 = .instr .nop := by decide
theorem test_decode_qenc0 : decode 0b00000000000000000000000000000001 = .instr (.qenc false) := by decide
theorem test_decode_qenc1 : decode 0b00000000000000000000000100000001 = .instr (.qenc true) := by decide
theorem test_decode_qdec : decode 0b00000000000000000000000000000010 = .instr .qdec := by decide
theorem test_decode_iterReset : decode 0b00000000000000000000000000001000 = .instr .iterReset := by decide
theorem test_decode_iterNext : decode 0b00000000000000000000000000001001 = .instr .iterNext := by decide
theorem test_decode_serBit : decode 0b00000000000000000000000000010000 = .instr .serBit := by decide
theorem test_decode_parse : decode 0b00000000000000000000000000010001 = .instr .parse := by decide
theorem test_decode_embStart : decode 0b00000000000000000000000000100000 = .instr .embStart := by decide
theorem test_decode_embFrame : decode 0b00000000000000000000000000100001 = .instr .embFrame := by decide
theorem test_decode_embEnd : decode 0b00000000000000000000000000100010 = .instr .embEnd := by decide
theorem test_decode_extStart : decode 0b00000000000000000000000000110000 = .instr .extStart := by decide
theorem test_decode_extFrame : decode 0b00000000000000000000000000110001 = .instr .extFrame := by decide
theorem test_decode_extEnd : decode 0b00000000000000000000000000110010 = .instr .extEnd := by decide
theorem test_decode_abort : decode 0b00000000000000000000000000111111 = .instr .abort := by decide
/-- K1, K5: an OP outside the map. -/
theorem test_decode_unknown : decode 0x00000003 = .illegal .unknownOp ∧ decode 0x000000FF = .illegal .unknownOp := by decide
/-- K2: B = 1 on QDEC. -/
theorem test_decode_strayB : decode 0x00000102 = .illegal .strayB := by decide
/-- K3: RSVD is not 0. -/
theorem test_decode_reserved : decode 0x80000000 = .illegal .reservedBits := by decide
/-- The table's word for EMB_FRAME, read as the host reads it. -/
theorem test_decodeTableWord : decodeTableWord 32 0x21 = some .embFrame := by decide

/-! ### Well-formedness: an ill-formed term for each check (10_state.md R23) -/

theorem test_wf_misaligned : (Event.regRead 0x006 32).wellFormed = false := by decide
theorem test_wf_narrow : (Event.regWrite 0x008 16 0).wellFormed = false := by decide
theorem test_wf_aligned : (Event.regWrite 0x008 32 0).wellFormed = true := by decide
theorem test_wf_instr : (Instr.qenc true).wellFormed = true := by decide

/-! ### QENC, QDEC (95_test_vectors.md 2.1, 2.2) -/

/-- Q8: the inward adjustment; Q11: a tie near COEF_MIN. -/
theorem test_qenc_edges :
    after (exec (.qenc false) { base with coefIn := 0x7FFFFFFF }) (·.coefOut) = some 0x7FFC0000
      ∧ after (exec (.qenc true) { base with coefIn := 0x80000000 }) (·.coefOut) = some 0x80020000 := by decide
/-- Q5 and Q6 under the three tie rules. -/
theorem test_qenc_ties :
    encodeWord .halfEven 0xFFFE0000 false 0x40000 = 0x00000000 ∧ encodeWord .halfAway 0xFFFE0000 false 0x40000 = 0xFFFC0000
      ∧ encodeWord .halfUp 0xFFFE0000 false 0x40000 = 0x00000000 ∧ encodeWord .halfEven 0 true 0x40000 = 0x00020000
      ∧ encodeWord .halfAway 0 true 0x40000 = 0xFFFE0000 ∧ encodeWord .halfUp 0 true 0x40000 = 0x00020000 := by decide
/-- Q7, Q15, Q20, Q21, Q23, Q25. -/
theorem test_encodeWord_table :
    encodeWord .halfEven 0xFFFB0000 true 0x40000 = 0xFFFA0000 ∧ encodeWord .halfEven 0xFFFFFFFF true 0x40000 = 0xFFFE0000
      ∧ encodeWord .halfEven 0xFFFFFFFF false 2 = 0 ∧ encodeWord .halfEven 0xFFFFFFFF true 2 = 0xFFFFFFFF
      ∧ encodeWord .halfEven 0x7FFFFFFF false 0x40000000 = 0x40000000
      ∧ encodeWord .halfEven 0x80000000 true 0x40000000 = 0xA0000000 := by decide
/-- V-Q3: illegal steps. -/
theorem test_legalStep :
    legalStep 0 = false ∧ legalStep 1 = false ∧ legalStep 3 = false ∧ legalStep 0x40001 = false
      ∧ legalStep 0x40000002 = false ∧ legalStep 0xFFFFFFFE = false ∧ legalStep 2 = true ∧ legalStep 0x40000000 = true := by decide
theorem test_qenc_badConfig : after (exec (.qenc false) { base with q := 3 }) (fun t => (t.cmdErr, t.coefOut)) = some (.badConfig, 0) := by
  decide
/-- V-D2, V-D3 (a tie), V-D9. -/
theorem test_qdec :
    after (exec .qdec { base with coefIn := 0x00060000 }) (·.bitOut) = some true
      ∧ after (exec .qdec { base with coefIn := 0x00050000 }) (·.bitOut) = some false := by decide
/-- V-D6, V-D7, V-D10, V-D11, V-D13, V-D14. -/
theorem test_decodeWord_table :
    decodeWord .halfEven 0x0004FFFF 0x40000 = false ∧ decodeWord .halfEven 0x00050001 0x40000 = true
      ∧ decodeWord .halfEven 0xFFFD0000 0x40000 = false ∧ decodeWord .halfEven 0xFFFD8000 0x40000 = true
      ∧ decodeWord .halfEven 0x7FFFFFFF 0x40000 = false ∧ decodeWord .halfEven 0x80000000 0x40000 = false := by decide
/-- 2.3: sample conversion. -/
theorem test_toSample :
    toSample build11 0xFFFF0000 = 0 ∧ toSample build11 0x01000000 = 255 ∧ toSample build11 0x007F8000 = 128
      ∧ toSample build11 0x00808000 = 128 ∧ toSample { build11 with roundTie := .halfAway } 0x00808000 = 129
      ∧ toSample build11 0x80000000 = 0 := by decide

/-! ### The iterator (95_test_vectors.md 2.5, P7) -/

theorem test_iterReset :
    after (exec .iterReset { base with frameW := 16, frameH := 16, iterRow := 8 }) (fun t => (t.iterValid, t.iterPosWord))
      = some (true, 0) := by decide
theorem test_iterReset_small :
    after (exec .iterReset { base with frameW := 7, frameH := 100 }) (·.iterValid) = some false := by decide
theorem test_iterNext :
    after (exec .iterNext { base with frameW := 16, frameH := 16, iterValid := true, iterCol := 8 })
        (fun t => (t.iterValid, t.iterPosWord)) = some (true, 0x00000008)
      ∧ after (exec .iterNext { base with frameW := 16, frameH := 16, iterValid := true, iterCol := 8, iterRow := 8 })
        (fun t => (t.iterValid, t.iterPosWord)) = some (false, 0x00080008) := by decide
theorem test_iterNext_active :
    after (exec .iterNext { base with run := .active, mode := .embed }) (·.cmdErr) = some .sequence := by decide

/-! ### SER_BIT, PARSE (95_test_vectors.md 2.6, 2.7) -/

def abc : Memory := bytesAt 0 [0x41, 0x42, 0x43]

theorem test_serBit :
    after (exec .serBit { base with pmem := abc, payLen := 3, idx := 118 }) (·.bitOut) = some true
      ∧ after (exec .serBit { base with pmem := abc, payLen := 3, idx := 126 }) (·.bitOut) = some false := by decide
theorem test_serBit_range :
    after (exec .serBit { base with pmem := abc, payLen := 3, idx := 0x100000000 }) (fun t => (t.cmdErr, t.errExp, t.errObs))
      = some (.indexRange, 144, 0x100000000) := by decide

/-- TM11 00 00 00 03 41 42 43. -/
def framed : Memory :=
  bytesAt 0 [0x51, 0x49, 0x4D, 0x2D, 0x4D, 0x41, 0x52, 0x4B, 0x45, 0x52, 0x31, 0, 0, 0, 3, 0x41, 0x42, 0x43]

/-- V-P1, V-P2. -/
theorem test_parse :
    after (exec .parse { base with pmem := framed, parseLen := 18 }) (fun t => (t.cmdErr, t.resOff, t.resLen)) = some (.ok, 15, 3)
      ∧ after (exec .parse { base with pmem := framed, parseLen := 17 }) (fun t => (t.cmdErr, t.errExp, t.errObs))
        = some (.truncatedPayload, 144, 136) := by decide
/-- V-P6, V-P9. -/
theorem test_parse_mismatch :
    after (exec .parse { base with pmem := Memory.write framed 3 0x2E, parseLen := 18 }) (fun t => (t.cmdErr, t.errExp, t.errObs))
        = some (.markerMismatch, 88, 30)
      ∧ after (exec .parse { base with pmem := Memory.write framed 3 0x2E, parseLen := 5 }) (fun t => (t.cmdErr, t.errExp, t.errObs))
        = some (.incompleteHeader, 120, 40) := by decide

/-! ### NOP, ABORT, dispatch and overrun (95_test_vectors.md 2.10; 45_system.md R271) -/

/-- K8. -/
theorem test_nop : after (exec .nop { base with cmdErr := .illegalCommand }) (·.cmdErr) = some .ok := by decide
/-- The example of R271. -/
theorem test_abort :
    after (exec .abort { base with mode := .extract, run := .active, iterValid := true, overrun := true }) (·.statusWord)
      = some 0x00010000 := by decide
/-- K1: the Host writes an illegal word. -/
theorem test_illegal_word : after (step { base with inputs := wr 0x000 0x00000003 }) (·.cmdErr) = some .illegalCommand := by decide
/-- K6. -/
theorem test_overrun :
    after (step { base with inputs := cmd .nop, busy := true, cmdErr := .sequence }) (fun t => (t.overrun, t.busy, t.cmdErr))
      = some (true, true, .sequence) := by decide
/-- A command placed by the host is the next step's (log 2): CMD_ERR = 6 for EMB_FRAME with MODE = NONE, M6. -/
theorem test_withFetchWord : after (step (State.reset.withFetchWord 32 0x21)) (·.cmdErr) = some .sequence := by decide
/-- An idle Core changes nothing (60_exceptions.md R327). -/
theorem test_idle : after (step State.reset) (·.busy) = some false := by decide

/-! ### The register window (95_test_vectors.md 2.10, W10) -/

/-- K11. -/
theorem test_coefPos_reserved :
    after (regWrite 0x00C 32 0xFFFFFFFF base) (fun t => t.readOffset 0x00C) = some 0x00000707 := by decide
/-- K9, K12. -/
theorem test_read_undefined : base.readOffset 0x068 = 0 ∧ base.readOffset 0x000 = 0 := by decide
/-- K10. -/
theorem test_write_status : after (regWrite 0x004 32 0xFFFFFFFF base) (·.statusWord) = some 0 := by decide
/-- W10, and PARAM and MARKER of the build (10_state.md R55, R57). -/
theorem test_read_after_reset :
    base.readOffset 0x008 = 0x00040000 ∧ base.readOffset 0x00C = 0x00000102 ∧ base.readOffset 0x064 = 0x0000100B
      ∧ base.readOffset 0x204 = 0x49 ∧ base.readOffset 0x22C = 0 := by decide
/-- IDX is written by halves (10_state.md R45). -/
theorem test_idx_halves :
    after (regWrite 0x02C 32 1 { base with idx := 0x0000000700000005 }) (·.idx) = some 0x0000000100000005 := by decide
/-- U16. -/
theorem test_refused_access :
    step { base with inputs := [.regRead 0x006 32] } = .refused .registerAccess
      ∧ step { base with inputs := [.regRead 0x004 8] } = .refused .registerAccess := ⟨rfl, rfl⟩
/-- U17: an access inside the frame while BUSY = 1 has no move: it stays to come, and the Core has its turn. -/
theorem test_host_contract_busy :
    after (step { base with busy := true, mode := .embed, run := .active, lw := 8, lh := 8, inputs := [.fmemRead 63] })
      (fun t => (t.inputs, t.rdData, t.bitsDone)) = some ([.fmemRead 63], 0, 1) := by decide
/-- U17, 20_memory.md R85: a write into the payload between the frames of an embed run has no move, and the Core is idle. -/
theorem test_host_contract_idle :
    step { base with mode := .embed, run := .active, llen := 1, inputs := [.pmemWrite 0 7] }
      = .next { base with mode := .embed, run := .active, llen := 1, inputs := [.pmemWrite 0 7] } := rfl

/-! ### Embedding (95_test_vectors.md 2.4, 2.8) -/

/-- The identity stub of 92_eei_decisions.md D33. -/
def stub : Transform := { fwd := fun blk i j => (blk i j).zeroExtend 32 <<< 16, inv := fun g => g }

/-- An 8x8 frame of one sample value. -/
def flat (v : Byte) : Memory := bytesAt 0 (List.replicate 64 v)

/-- An embed run, ML = 1, PAY_LEN = 1, PMEM[0] = 0x41, busy at block (0, 0) of an 8x8 frame. -/
def embedding (done : DWord) (v : Byte) : State :=
  { base1 with
    busy := true, mode := .embed, run := .active, iterValid := true, llen := 1, bitsReq := 48, bitsDone := done, lw := 8, lh := 8,
    fmem := flat v, pmem := bytesAt 0 [0x41] }

/-- E1: stream bit 0 is 1, sample (2, 1) of 128 becomes 130 and its neighbour stays. -/
theorem test_embed_E1 :
    after (coreTurn stub (embedding 0 128)) (fun t => (t.fmemByte 17, t.fmemByte 18)) = some (130, 128) := by
  decide +kernel
/-- E7: stream bit 1 is 0, sample 130 becomes 128; the frame ends (R215). -/
theorem test_embed_E7 :
    after (coreTurn stub (embedding 1 130)) (fun t => (t.fmemByte 17, t.busy, t.exhausted)) = some (128, false, false) := by
  decide +kernel
/-- The step that embeds bit N - 1 sets EXHAUSTED: the status of M1 with ITER_VALID = 0. -/
theorem test_embed_last : after (coreTurn stub (embedding 47 128)) (·.statusWord) = some 0x0000004A := by decide
/-- The example of 43_embed.md R211; M8. -/
theorem test_embStart :
    after (exec .embStart { base with payLen := 3 }) (fun t => (t.bitsReq, t.bitsDone, t.llen)) = some (144, 0, 3)
      ∧ after (exec .embStart base1) (·.bitsReq) = some 40 := by decide
/-- M5: a frame without a block; M2: a frame after exhaustion. -/
theorem test_embFrame :
    after (exec .embFrame { base1 with mode := .embed, run := .active, lw := 7, lh := 100 }) (fun t => (t.busy, t.frameCnt))
        = some (false, 1)
      ∧ after (exec .embFrame { base1 with mode := .embed, run := .active, lw := 8, lh := 8, exhausted := true })
        (fun t => (t.busy, t.frameCnt)) = some (false, 1) := by decide
theorem test_embFrame_busy :
    after (exec .embFrame { base1 with mode := .embed, run := .active, lw := 8, lh := 8, iterRow := 40 })
      (fun t => (t.busy, t.iterValid, t.iterRow)) = some (true, true, 0) := by decide
/-- M3, its end. -/
theorem test_embEnd :
    after (exec .embEnd { base1 with mode := .embed, run := .active, bitsReq := 48, bitsDone := 4 })
      (fun t => (t.statusWord, t.errExp, t.errObs)) = some (0x00000092, 48, 4) := by decide

/-! ### Extraction (95_test_vectors.md 2.9) -/

/-- An extract run, ML = 1, busy at block (0, 0) of an 8x8 frame. -/
def extracting (done : DWord) (v : Byte) : State :=
  { base1 with
    busy := true, mode := .extract, run := .active, iterValid := true, bitsDone := done, lw := 8, lh := 8, fmem := flat v }

/-- 44_extract.md R243, the example: sample 130 appends bit 1. -/
theorem test_extract_bit :
    after (coreTurn stub (extracting 8 130)) (fun t => (t.hdrByte 1, t.bitsDone)) = some (1, 9) := by decide
/-- X2: the marker fails at bit HL = 40 (the frame here ends with the block, so ITER_VALID = 0). -/
theorem test_extract_mismatch :
    after (coreTurn stub (extracting 39 128)) (fun t => (t.statusWord, t.errExp, t.errObs)) = some (0x0000111C, 8, 0) := by decide
/-- X1: HDR = A5 00 00 00 01 once bit 40 is appended; BITS_REQ = 48. -/
theorem test_extract_header :
    after (coreTurn stub { extracting 39 130 with hdr := base1.hdr.setIfInBounds 0 0xA5 })
      (fun t => (t.hdrValid, t.bitsReq, t.hdrByte 4)) = some (true, 48, 1) := by decide
/-- X1: the last bit of 0x41 stores the byte and completes the run. -/
theorem test_extract_done :
    after (coreTurn stub { extracting 47 130 with hdrValid := true, bitsReq := 48, byteSr := 0x20 })
      (fun t => (t.statusWord, t.resLen, t.pmemByte 0)) = some (0x00000034, 1, 0x41) := by decide
/-- 44_extract.md R240, the example: STATUS = 0x0000000C. -/
theorem test_extStart : after (exec .extStart { base with llen := 9 }) (fun t => (t.statusWord, t.llen)) = some (0x0000000C, 0) := by
  decide
/-- X3: EXT_FRAME after FAILED. -/
theorem test_extFrame_failed :
    after (exec .extFrame { base1 with mode := .extract, run := .failed, runErr := .markerMismatch, iterValid := true })
      (·.statusWord) = some 0x0001161C := by decide
theorem test_extFrame :
    after (exec .extFrame { base1 with mode := .extract, run := .active, lw := 16, lh := 8 }) (fun t => (t.busy, t.frameCnt))
      = some (true, 1) := by decide
/-- X4 and X7. -/
theorem test_extEnd :
    after (exec .extEnd { base1 with mode := .extract, run := .active, bitsDone := 4 }) (fun t => (t.statusWord, t.errExp, t.errObs))
        = some (0x0000441C, 40, 4)
      ∧ after (exec .extEnd { base1 with mode := .extract, run := .active, hdrValid := true, bitsReq := 56, bitsDone := 44 })
        (fun t => (t.cmdErr, t.errExp, t.errObs)) = some (.streamTruncated, 56, 44) := by decide

/-! ### Reset (95_test_vectors.md 2.11) -/

/-- Z1. -/
theorem test_reset_registers :
    after (resetEvent { base with q := 3, cmdErr := .badConfig, mode := .embed, run := .done, pmem := abc })
      (fun t => (t.statusWord, t.q, t.coefPosWord, t.pmemByte 1)) = some (0, 0x00040000, 0x00000102, 0x42) := by decide
/-- Z3: the byte under assembly is the draw. -/
theorem test_reset_extract :
    after (resetEvent { extracting 45 128 with draws := 7 }) (fun t => (t.pmem, t.draws)) = some ([(0, Config.draw 7)], 8) := rfl
/-- Z4. -/
theorem test_reset_header : after (resetEvent (extracting 12 128)) (fun t => (t.pmem, t.draws)) = some ([], 0) := rfl
/-- Z2: sample (0, 0) of the block under write-back is a draw. -/
theorem test_reset_embed (i j : Fin 8) :
    (embedding 3 128).drawBlock.resetRegs.fmemByte (8 * i.val + j.val) = Config.draw (8 * i.val + j.val) := by
  have e : sampleAddr (embedding 3 128).lw (embedding 3 128).iterRow (embedding 3 128).iterCol i j = 8 * i.val + j.val := by
    revert i j
    decide
  have h := State.writeBlock_same (embedding 3 128) (fun i j => Config.draw (8 * i.val + j.val)) (by decide) i j
  rw [e] at h
  simpa [State.drawBlock, State.resetRegs, State.fmemByte, embedding, base1, State.powerOn] using h

/-! ### Host programs (30_encoding.md R120, R121) -/

theorem test_wrIdx : wrIdx 0x100000079 = [.regWrite 0x028 32 0x00000079, .regWrite 0x02C 32 0x00000001] := by decide
theorem test_pload : pload [0x41, 0x42] = [.pmemWrite 0 0x41, .pmemWrite 1 0x42] := by decide
/-- `wait` gives an enabled Core its turn and ends with a read of STATUS. -/
theorem test_wait : after (step { base with inputs := [.wait], cmdErr := .badConfig }) (fun t => (t.rdData, t.inputs)) = some (0x700, []) := by
  decide

/-! ### Witnesses: concrete values that meet the hypotheses of each obligation that has some, a value for each clause at its boundary -/

/-- A run that answers. -/
theorem next_of_after {α : Type} {o : Host.Outcome State Fault Refusal} {f : State → α} {v : α} (h : after o f = some v) :
    ∃ t, o = .next t ∧ f t = v := by
  cases o with
  | next t => exact ⟨t, rfl, Option.some.inj h⟩
  | fault r => cases h
  | refused r => cases h

theorem witness_DecodeEncodeAgree : Instr.abort.wellFormed = true ∧ decode 0x0000003F = .instr .abort := by decide

theorem witness_IllegalWords :
    decode 0x00000200 = .illegal .reservedBits ∧ decode 0x00000003 = .illegal .unknownOp ∧ decode 0x00000102 = .illegal .strayB
      ∧ base.busy = false := by decide

theorem witness_StepRunsTheCommand :
    ({ base with inputs := cmd .parse } : State).inputs = .regWrite 0x000 32 0x00000011 :: [] ∧ decode 0x00000011 = .instr .parse
      ∧ Instr.parse.wellFormed = true := by decide

theorem witness_BusyDropsCommand : (embedding 0 128).busy = true := rfl

theorem witness_SequenceTable :
    base.busy = false ∧ sequenceAllows .extEnd base = false ∧ sequenceAllows .iterNext base = true
      ∧ after (exec .iterNext base) (·.cmdErr) = some .ok := by decide

/-- Q on each side of both bounds, and odd between them. -/
theorem witness_BadConfigExactly :
    base.busy = false ∧ (0 : Word).toNat < 2 ∧ 2 ^ 30 < (0x40000002 : Word).toNat ∧ (0x3FFFFFFF : Word).toNat % 2 = 1
      ∧ ((2 : Word).toNat % 2 = 0 ∧ 2 ≤ (2 : Word).toNat)
      ∧ ((0x40000000 : Word).toNat % 2 = 0 ∧ (0x40000000 : Word).toNat ≤ 2 ^ 30)
      ∧ after (exec .embStart { base with q := 2 }) (·.cmdErr) = some .ok := by decide

theorem witness_ControlEffects : base.busy = false := rfl

theorem witness_RoundIsNearest : (0 : Int) < 4 ∧ 2 * ((-2 : Int) % 4) = 4 := by decide

/-- The three ranges of EncodeU, at their edges. -/
theorem witness_EncodeOnLatticeInRange :
    legalStep 0x40000 = true ∧ legalStep 2 = true ∧ legalStep 0x40000000 = true
      ∧ encodeU .halfEven (0x7FFFFFFF : Word).toInt false 0x40000 > 2 ^ 31 - 1
      ∧ encodeU .halfAway (0x80000000 : Word).toInt true 0x40000 < -2 ^ 31
      ∧ encodeU .halfEven (0x80000000 : Word).toInt false 2 = -2 ^ 31
      ∧ encodeU .halfEven (0x7FFFFFFF : Word).toInt true 2 = 2 ^ 31 - 1 := by decide

theorem witness_DecodeByResidue : legalStep 2 = true ∧ legalStep 0x40000000 = true := by decide

/-- A residue away from both half points, and each of the two. -/
theorem witness_TieRuleReach :
    legalStep 4 = true ∧ (1 : Int) % 4 ≠ (4 : Int) / 2 ∧ (1 : Int) % 4 ≠ 0 ∧ (-2 : Int) % 4 = (4 : Int) / 2 ∧ (-4 : Int) % 4 = 0 := by
  decide

/-- The largest error below q/4, and q/4 itself. -/
theorem witness_StabilityLaws :
    legalStep 0x40000 = true ∧ 4 * |(0xFFFF : Int)| < ((0x40000 : Word).toNat : Int)
      ∧ -2 ^ 31 ≤ qimEncode .halfEven (0 : Word).toInt true 0x40000 + 0xFFFF
      ∧ qimEncode .halfEven (0 : Word).toInt true 0x40000 + 0xFFFF ≤ 2 ^ 31 - 1
      ∧ 4 * |(-0x10000 : Int)| = ((0x40000 : Word).toNat : Int) := by decide

theorem witness_SampleRoundClampCommute : ({ build11 with frac := 0 } : Build).frac = 0 := rfl

theorem witness_CodecEffects : base.busy = false ∧ legalStep base.q = true := by decide

theorem witness_QencQdecRoundTrip :
    base.busy = false ∧ legalStep base.q = true ∧ ∃ t, exec (.qenc true) base = .next t ∧ t.coefOut = 0x00020000 :=
  ⟨rfl, by decide, next_of_after (by decide)⟩

/-- One state for each case of Next: right, down, end; and an invalid position. -/
theorem witness_IteratorCommandEffects :
    base.busy = false ∧ base.run ≠ .active ∧ base.iterValid = false
      ∧ (0 : Half).toNat + 16 ≤ (16 : Half).toNat ∧ (16 : Half).toNat < (8 : Half).toNat + 16
      ∧ (65528 : Half).toNat + 16 > (65535 : Half).toNat
      ∧ ({ base with iterValid := true } : State).iterValid = true := by decide

theorem witness_IteratorOrder :
    3 < ((23 : Half).toNat / 8) * ((17 : Half).toNat / 8) ∧ ((23 : Half).toNat / 8) * ((17 : Half).toNat / 8) ≤ 4
      ∧ ((7 : Half).toNat / 8) * ((65535 : Half).toNat / 8) ≤ 0
      ∧ iterAt 17 23 3 = (true, 8, 8) := by decide

/-- Each zone of the stream at both its ends, for ML = 11. -/
theorem witness_StreamBytesAndBits :
    (0xFFFFFFFF : Nat) < 2 ^ 32 ∧ 10 < build11.ml ∧ (build11.ml ≤ 11 ∧ 11 < build11.ml + 4) ∧ (build11.ml ≤ 14 ∧ 14 < build11.ml + 4)
      ∧ build11.ml + 4 ≤ 15 ∧ 119 < 8 * (build11.ml + 4) ∧ 8 * (build11.ml + 4) ≤ 120 := by decide

/-- The last bit of the stream and the first index past it. -/
theorem witness_SerBitEffect :
    base.busy = false
      ∧ ({ base with payLen := 3, idx := 143 } : State).idx.toNat < 8 * (build11.ml + 4 + (3 : Word).toNat)
      ∧ 8 * (build11.ml + 4 + (3 : Word).toNat) ≤ ({ base with payLen := 3, idx := 144 } : State).idx.toNat := by decide

/-- A byte sequence that differs from the marker at bit 30, and one that does not differ. -/
theorem witness_MarkerMatchFirstDifference :
    markerMatchBits build11 (fun k => if k = 3 then 0x2E else Build.markerByte build11 k) = 30
      ∧ markerMatchBits build11 (Build.markerByte build11) = 8 * build11.ml := by decide

/-- One input for each outcome of PARSE, at the lengths where they meet. -/
theorem witness_ParseEffect :
    base.busy = false ∧ (14 : Word).toNat < build11.ml + 4 ∧ build11.ml + 4 ≤ (15 : Word).toNat
      ∧ ({ base with pmem := Memory.write framed 3 0x2E } : State).pmemByte 3 ≠ Build.markerByte build11 3
      ∧ (∀ k, k < build11.ml → ({ base with pmem := framed } : State).pmemByte k = Build.markerByte build11 k)
      ∧ (17 : Word).toNat - (build11.ml + 4) < lengthField build11 ({ base with pmem := framed } : State).pmemByte
      ∧ lengthField build11 ({ base with pmem := framed } : State).pmemByte ≤ (18 : Word).toNat - (build11.ml + 4) := by decide

theorem witness_FramingRoundTrip :
    (3 : Nat) < 2 ^ 32
      ∧ (∀ k, k < build11.ml + 4 + 3 →
          ({ base with pmem := framed } : State).pmemByte k = streamByte build11 ({ base with pmem := abc } : State).pmemByte 3 k)
      ∧ build11.ml + 4 + 3 ≤ 18 := by decide

theorem witness_StartEffects : base.busy = false ∧ legalStep base.q = true := by decide

/-- A run between frames, in each of the cases of EMB_FRAME: after exhaustion, without a block (LW = 7, LH = 7), and with one. -/
theorem witness_EmbFrameEffect :
    (∀ e : Bool, ∀ w h : Half,
      ({ embedding 0 128 with busy := false, exhausted := e, lw := w, lh := h } : State).busy = false
        ∧ ({ embedding 0 128 with busy := false, exhausted := e, lw := w, lh := h } : State).mode = .embed
        ∧ ({ embedding 0 128 with busy := false, exhausted := e, lw := w, lh := h } : State).run = .active)
      ∧ (7 : Half).toNat < 8 ∧ 8 ≤ (8 : Half).toNat := ⟨fun _ _ _ => ⟨rfl, rfl, rfl⟩, by decide, by decide⟩

/-- Partial by one bit, complete, and ended. -/
theorem witness_EmbEndEffect :
    ({ embedding 47 128 with busy := false } : State).bitsDone.toNat < (embedding 47 128).bitsReq.toNat
      ∧ ({ embedding 48 128 with busy := false } : State).bitsReq.toNat ≤ (embedding 48 128).bitsDone.toNat
      ∧ ({ embedding 48 128 with busy := false, run := .done } : State).run ≠ .active
      ∧ ({ embedding 48 128 with busy := false } : State).mode = .embed := by decide

theorem witness_EmbedStepMemory :
    (embedding 0 128).busy = true ∧ (embedding 0 128).mode = .embed
      ∧ (embedding 0 128).iterCol.toNat + 8 ≤ (embedding 0 128).lw.toNat
      ∧ (∃ g, g = stub.fwd (fun i j => (embedding 0 128).fmemByte ((0 + i.val) * 8 + (0 + j.val))))
      ∧ ∃ t, coreTurn stub (embedding 0 128) = .next t :=
  ⟨rfl, rfl, by decide, ⟨_, rfl⟩,
    show ∃ t, embedBlock stub (embedding 0 128) = .next t from embedBlock_answers stub (by decide) (by decide)⟩

/-- Addresses inside the memories, up to the last block of the largest frame. -/
theorem witness_EmbedStepRegisters :
    (embedding 0 128).busy = true ∧ (embedding 0 128).mode = .embed
      ∧ ((65528 : Half).toNat + 7) * (65535 : Half).toNat + ((65527 : Half).toNat + 7) < 2 ^ 32
      ∧ ((embedding 0 128).bitsDone.toNat - 8 * (build1.ml + 4)) / 8 < 2 ^ 32 := by decide

/-- An embed run that meets the invariant, without the sample memory. -/
def embedRun (done : DWord) (busy : Bool) : State := { embedding done 128 with busy := busy, fmem := [] }

theorem embedRun_inv {done : DWord} (busy : Bool) (h : done.toNat < 48) : (embedRun done busy).Inv where
  status := by
    constructor <;> cases busy <;> simp [embedRun, embedding, base1, State.powerOn]
  frame := fun _ => ⟨rfl, rfl, rfl, Nat.le_refl 8, Nat.le_refl 8⟩
  embed := fun _ => by
    have hne : done ≠ 48 := fun e => by subst e; exact absurd h (by decide)
    exact ⟨rfl, Nat.le_of_lt h, ⟨(fun e => by cases e), fun e => absurd e hne⟩, fun _ => rfl⟩
  extract := fun e => by cases e
  step := by change legalStep 0x40000 = true; decide
  fmem := by simp [embedRun, Memory.wf]
  pmem := by simp [embedRun, embedding, bytesAt, Memory.wf]

/-- An extract run that meets the invariant, before its header is complete. -/
def extractRun (done : DWord) (busy : Bool) : State := { extracting done 128 with busy := busy, fmem := [] }

theorem extractRun_inv {done : DWord} (busy : Bool) (h : done.toNat < 40) : (extractRun done busy).Inv where
  status := by
    constructor <;> cases busy <;> simp [extractRun, extracting, base1, State.powerOn]
  frame := fun _ => ⟨rfl, rfl, rfl, Nat.le_refl 8, Nat.le_refl 8⟩
  embed := fun e => by cases e
  extract := fun _ => ⟨fun _ => ⟨Nat.le_of_lt h, rfl, fun _ => h, (fun e => by cases e)⟩, (fun e => by cases e)⟩
  step := by change legalStep 0x40000 = true; decide
  fmem := by simp [extractRun, Memory.wf]
  pmem := by simp [extractRun, extracting, base1, State.powerOn, Memory.wf]

/-- A complete extraction of the empty payload. -/
def extracted : State :=
  { extractRun 40 false with
    run := .done, hdrValid := true, bitsReq := 40, hdr := base1.hdr.setIfInBounds 0 0xA5, iterValid := false }

theorem extracted_inv : extracted.Inv where
  status := by
    constructor <;> simp [extracted, extractRun, extracting, base1, State.powerOn]
  frame := fun e => by cases e
  embed := fun e => by cases e
  extract := fun _ => ⟨(fun e => by cases e), fun _ => by decide⟩
  step := by change legalStep 0x40000 = true; decide
  fmem := by simp [extracted, extractRun, Memory.wf]
  pmem := by simp [extracted, extractRun, extracting, base1, State.powerOn, Memory.wf]

theorem witness_EmbedFrameEnds :
    (embedRun 0 false).Inv ∧ (embedRun 0 false).busy = false ∧ (embedRun 0 false).mode = .embed ∧ (embedRun 0 false).run = .active
      ∧ ∃ t, exec .embFrame (embedRun 0 false) = .next t ∧ t.busy = true :=
  ⟨embedRun_inv false (by decide), rfl, rfl, rfl, next_of_after (by decide)⟩

/-- A run between frames in each case of EXT_FRAME: without a block and with one. -/
theorem witness_ExtFrameEffect :
    (∀ w h : Half, ({ extractRun 0 false with lw := w, lh := h } : State).busy = false
        ∧ ({ extractRun 0 false with lw := w, lh := h } : State).mode = .extract
        ∧ ({ extractRun 0 false with lw := w, lh := h } : State).run = .active)
      ∧ (7 : Half).toNat < 8 ∧ 8 ≤ (8 : Half).toNat := ⟨fun _ _ => ⟨rfl, rfl, rfl⟩, by decide, by decide⟩

theorem witness_ExtEndEffect :
    (extractRun 4 false).busy = false ∧ (extractRun 4 false).mode = .extract ∧ (extractRun 4 false).run = .active
      ∧ (extractRun 4 false).hdrValid = false ∧ ({ extractRun 44 false with hdrValid := true } : State).hdrValid = true
      ∧ extracted.run ≠ .active := by decide

/-- The last header bit, the first payload bit, and an eighth payload bit. -/
theorem witness_ExtractStepAppends :
    (extracting 39 128).busy = true ∧ (extracting 39 128).mode = .extract
      ∧ false = qimDecode .halfEven
          (stub.fwd (fun i j => (extracting 39 128).fmemByte ((0 + i.val) * 8 + (0 + j.val))) 2 1).toInt (0x40000 : Word).toNat
      ∧ (∃ t, coreTurn stub (extracting 39 128) = .next t) ∧ (∃ t, coreTurn stub (extracting 47 128) = .next t)
      ∧ (extracting 39 128).bitsDone.toNat < 8 * (build1.ml + 4) ∧ 8 * (build1.ml + 4) ≤ (extracting 40 128).bitsDone.toNat
      ∧ (extracting 40 128).bitsDone.toNat % 8 ≠ 7 ∧ (extracting 47 128).bitsDone.toNat % 8 = 7 :=
  ⟨rfl, rfl, by decide, show ∃ t, extractBlock stub (extracting 39 128) = .next t from extractBlock_answers stub (by decide) (by decide),
    show ∃ t, extractBlock stub (extracting 47 128) = .next t from extractBlock_answers stub (by decide) (by decide),
    by decide, by decide, by decide, by decide⟩

theorem witness_MarkerMismatchEndsRun :
    (extracting 39 128).busy = true ∧ (extracting 39 128).mode = .extract ∧ (extracting 39 128).hdrValid = false
      ∧ (extracting 39 128).bitsDone.toNat + 1 = 8 * (build1.ml + 4)
      ∧ ∃ t, coreTurn stub (extracting 39 128) = .next t ∧ ∃ k, k < build1.ml ∧ t.hdrByte k ≠ Build.markerByte build1 k := by
  obtain ⟨t, ht, h⟩ := next_of_after (show after (coreTurn stub (extracting 39 128)) (fun t => t.hdrByte 0) = some 0 by decide)
  exact ⟨rfl, rfl, rfl, rfl, t, ht, 0, by decide, by rw [h]; decide⟩

/-- L = 0 and L = 1. -/
theorem witness_HeaderSetsRequiredBits :
    ∀ v ∈ ([128, 130] : List Byte), ∃ t,
      coreTurn stub { extracting 39 v with hdr := base1.hdr.setIfInBounds 0 0xA5 } = .next t
        ∧ (∀ k, k < build1.ml → t.hdrByte k = Build.markerByte build1 k)
        ∧ lengthField build1 t.hdrByte = if v = 128 then 0 else 1 := by
  intro v hv
  simp only [List.mem_cons, List.not_mem_nil, or_false] at hv
  rcases hv with rfl | rfl
  · obtain ⟨t, ht, h⟩ := next_of_after (show after (coreTurn stub { extracting 39 128 with hdr := base1.hdr.setIfInBounds 0 0xA5 })
      (fun t => (t.hdrByte 0, lengthField build1 t.hdrByte)) = some (0xA5, 0) by decide)
    exact ⟨t, ht, fun k hk => by
      obtain rfl : k = 0 := Nat.lt_one_iff.1 hk
      exact congrArg Prod.fst h, congrArg Prod.snd h⟩
  · obtain ⟨t, ht, h⟩ := next_of_after (show after (coreTurn stub { extracting 39 130 with hdr := base1.hdr.setIfInBounds 0 0xA5 })
      (fun t => (t.hdrByte 0, lengthField build1 t.hdrByte)) = some (0xA5, 1) by decide)
    exact ⟨t, ht, fun k hk => by
      obtain rfl : k = 0 := Nat.lt_one_iff.1 hk
      exact congrArg Prod.fst h, congrArg Prod.snd h⟩

/-- The bit that reaches BITS_REQ, the one before it, and the last header bit but one. -/
theorem witness_ExtractCompletion :
    (∀ n ∈ ([46, 47] : List DWord), ∃ t, coreTurn stub { extracting n 128 with hdrValid := true, bitsReq := 48 } = .next t)
      ∧ (47 : DWord) + 1 = 48 ∧ (46 : DWord) + 1 ≠ 48
      ∧ (∃ t, coreTurn stub (extracting 38 128) = .next t) ∧ (extracting 38 128).hdrValid = false
      ∧ (extracting 38 128).bitsDone.toNat + 1 ≠ 8 * (build1.ml + 4) := by
  refine ⟨fun n hn => ?_, rfl, by decide,
    show ∃ t, extractBlock stub (extracting 38 128) = .next t from extractBlock_answers stub (by decide) (by decide), rfl, by decide⟩
  simp only [List.mem_cons, List.not_mem_nil, or_false] at hn
  rcases hn with rfl | rfl
  · exact show ∃ t, extractBlock stub { extracting 46 128 with hdrValid := true, bitsReq := 48 } = .next t from
      extractBlock_answers stub (by decide) (by decide)
  · exact show ∃ t, extractBlock stub { extracting 47 128 with hdrValid := true, bitsReq := 48 } = .next t from
      extractBlock_answers stub (by decide) (by decide)

theorem witness_FinalParseSucceeds : extracted.Inv ∧ extracted.mode = .extract ∧ extracted.run = .done :=
  ⟨extracted_inv, rfl, rfl⟩

theorem witness_ExtractFrameEnds :
    (extractRun 0 false).Inv ∧ (extractRun 0 false).busy = false ∧ (extractRun 0 false).mode = .extract
      ∧ (extractRun 0 false).run = .active ∧ ∃ t, exec .extFrame (extractRun 0 false) = .next t ∧ t.busy = true :=
  ⟨extractRun_inv false (by decide), rfl, rfl, rfl, next_of_after (by decide)⟩

/-- Every command answers a next state, so the premises of the three frames are met. -/
theorem witness_Frames :
    ∀ i ∈ ([.nop, .abort, .qenc true, .qdec, .iterReset, .iterNext, .serBit, .parse, .embStart, .extStart] : List Instr),
      after (exec i { base with pmem := framed, parseLen := 18 }) (·.cmdErr) = some .ok := by decide

theorem witness_RunFrames :
    after (exec .embFrame (embedRun 0 false)) (·.cmdErr) = some .ok ∧ after (exec .embEnd (embedRun 0 false)) (·.cmdErr) = some .ok
      ∧ after (exec .extFrame (extractRun 0 false)) (·.cmdErr) = some .ok
      ∧ after (exec .extEnd (extractRun 0 false)) (·.cmdErr) = some .streamTruncated := by decide

theorem witness_RegisterWrites :
    (0x004 : BitVec 12).toNat % 4 = 0
      ∧ (0x004 : BitVec 12) ∉ ([0x000, 0x008, 0x00C, 0x010, 0x014, 0x018, 0x01C, 0x020, 0x028, 0x02C] : List (BitVec 12))
      ∧ ({ base with inputs := wr 0x008 7 } : State).inputs = .regWrite 0x008 32 7 :: [] := by decide

/-- The list of the outcome codes is the one of 60_exceptions.md R301. -/
theorem witness_StatusLayout :
    ∃ outcomes : List (Code × BitVec 4),
      outcomes = [(.ok, 0), (.markerMismatch, 1), (.incompleteHeader, 2), (.truncatedPayload, 3), (.streamTruncated, 4),
        (.illegalCommand, 5), (.sequence, 6), (.badConfig, 7), (.indexRange, 8)] := ⟨_, rfl⟩

/-- The edges of the ranges of offsets that no rule defines, a build's tie rule, the edges of HDR and MARKER for ML = 11, and
a read event. -/
theorem witness_ReadsHaveNoSideEffect :
    (0x068 : BitVec 12).toNat % 4 = 0 ∧ 0x068 ≤ (0x068 : BitVec 12).toNat ∧ (0x0FC : BitVec 12).toNat < 0x100
      ∧ 0x300 ≤ (0x300 : BitVec 12).toNat ∧ (0xFFC : BitVec 12).toNat % 4 = 0
      ∧ (build11.roundTie, (0 : BitVec 2)) ∈ ([(.halfEven, 0), (.halfAway, 1), (.halfUp, 2)] : List (RoundTie × BitVec 2))
      ∧ (10 < build11.ml ∧ ¬ 11 < build11.ml ∧ 14 < build11.ml + 4 ∧ ¬ 15 < build11.ml + 4 ∧ 63 < 64)
      ∧ ({ base with inputs := rd 0x004 } : State).inputs = .regRead 0x004 32 :: [] := by decide

/-- A misaligned offset, a narrow access, and a step that refuses one. -/
theorem witness_BadAccessRefused :
    (0x006 : BitVec 12).toNat % 4 ≠ 0 ∧ (16 : Nat) ≠ 32
      ∧ step { base with inputs := [.regRead 0x006 32] } = .refused .registerAccess := ⟨by decide, by decide, rfl⟩

/-- Each access on both sides of the contract: the last address a breach reaches and the first it does not, and each mode and run
state of the clauses on PMEM. -/
theorem witness_HostContract :
    (∀ e : Event, ({ embedding 0 128 with inputs := [e] } : State).inputs = e :: [])
      ∧ ((embedding 0 128).busy = true ∧ (63 : Word).toNat < (embedding 0 128).lw.toNat * (embedding 0 128).lh.toNat
        ∧ ¬ (64 : Word).toNat < (embedding 0 128).lw.toNat * (embedding 0 128).lh.toNat)
      ∧ ((extracting 0 128).busy = true ∧ (extracting 0 128).mode = .extract ∧ (extractRun 0 false).busy = false)
      ∧ ((embedRun 0 false).mode = .embed ∧ (embedRun 0 false).run = .active ∧ (embedRun 0 false).busy = false
        ∧ (0 : Word).toNat < (embedRun 0 false).llen.toNat ∧ ¬ (1 : Word).toNat < (embedRun 0 false).llen.toNat) :=
  ⟨fun _ => rfl, by decide, by decide, by decide⟩

/-- A write and a read of each memory; in an embed run between frames, the first PMEM address past the payload. -/
theorem witness_MemoryReadAfterWrite :
    base.busy = false ∧ ({ base with inputs := [.fmemWrite 5 7, .fmemRead 5] } : State).inputs = .fmemWrite 5 7 :: .fmemRead 5 :: []
      ∧ (embedRun 0 false).busy = false ∧ (embedRun 0 false).mode = .embed ∧ (embedRun 0 false).run = .active
      ∧ (embedRun 0 false).llen.toNat ≤ (1 : Word).toNat
      ∧ ({ embedRun 0 false with inputs := [.pmemWrite 1 7, .pmemRead 0] } : State).inputs = .pmemWrite 1 7 :: .pmemRead 0 :: [] := by
  decide

theorem witness_CoreEnablement :
    base.busy = false ∧ (embedding 0 128).busy = true ∧ (embedding 0 128).mode = .embed ∧ (extracting 0 128).busy = true
      ∧ (extracting 0 128).mode = .extract ∧ base.inputs = []
      ∧ ({ base with inputs := [.coreTurn] } : State).inputs = .coreTurn :: []
      ∧ ({ embedding 0 128 with inputs := [.wait] } : State).inputs = .wait :: []
      ∧ ({ base with inputs := [.wait] } : State).inputs = .wait :: [] := by decide

theorem witness_ResetValues :
    base.busy = false ∧ (∃ t, resetEvent base = .next t) ∧ ({ base with inputs := [.reset] } : State).inputs = .reset :: [] :=
  ⟨rfl, ⟨_, rfl⟩, rfl⟩

/-- A reset of a busy embed frame, and of an extract frame at its first payload bit. -/
theorem witness_ResetInFlight :
    (embedding 3 128).busy = true ∧ (∃ t, resetEvent (embedding 3 128) = .next t)
      ∧ (extracting 40 128).busy = true ∧ 8 * (build1.ml + 4) ≤ (extracting 40 128).bitsDone.toNat
      ∧ ∃ t, resetEvent (extracting 40 128) = .next t := ⟨rfl, ⟨_, rfl⟩, rfl, by decide, ⟨_, rfl⟩⟩

/-- A block step of a busy run, from a state with the invariant. -/
theorem witness_StepInvariants :
    (embedRun 47 true).Inv ∧ (embedRun 47 true).StatusInv ∧ Memory.wf (embedRun 47 true).fmem ∧ Memory.wf (embedRun 47 true).pmem
      ∧ ∃ t, step (embedRun 47 true) = .next t :=
  have h := embedRun_inv (done := 47) true (by decide)
  ⟨h, h.status, h.fmem, h.pmem,
    show ∃ t, embedBlock Config.transform (embedRun 47 true) = .next t from embedBlock_answers _ (by decide) (by decide)⟩

theorem witness_LatchesWrittenByStartOnly :
    ∃ t, step { base with frameW := 8, inputs := cmd .embStart } = .next t ∧ t.lw = 8 := next_of_after (by decide)

theorem witness_OverrunSticky :
    ∃ t, step { base with overrun := true, inputs := cmd .abort } = .next t ∧ t.overrun = false := next_of_after (by decide)

end Sys2Proof.Tests
end

section
/-! PROOFS. The base case of the invariant: a block right after power-on meets it, whatever its build (00_scope.md R7; 10_state.md R36,
R60). -/

namespace Sys2Proof

theorem Build.one_pos (b : Build) : 0 < b.one := Nat.two_pow_pos _

/-- F is at most 28 (00_scope.md R7). -/
theorem Build.one_le (b : Build) : b.one ≤ 2 ^ 28 := Nat.pow_le_pow_right Nat.two_pos (Nat.le_of_lt_succ b.frac.isLt)

end Sys2Proof

namespace Sys2Proof.Machine

/-- The reset value of Q and of its latch, 4.0, is a legal step for every F (10_state.md R60; 60_exceptions.md R309): at F = 28 it is the
greatest one, 2^30. -/
theorem legalStep_four_mul_one (b : Build) : legalStep (BitVec.ofNat 32 (4 * b.one)) = true := by
  have hpos := b.one_pos
  have hle := b.one_le
  have hval : (BitVec.ofNat 32 (4 * b.one)).toNat = 4 * b.one := by
    rw [BitVec.toNat_ofNat, Nat.mod_eq_of_lt (by omega)]
  rw [legalStep_iff, hval]
  omega

/-- After power-on no run is open and no flag of STATUS is set, so each relation of R36 holds with nothing to show. -/
theorem State.powerOn_statusInv (b : Build) : (State.powerOn b).StatusInv where
  noneIdle := iff_of_true rfl rfl
  busyActive := nofun
  hdrExtract := nofun
  exhaustedEmbed := nofun
  partialDone := nofun
  errFailed := fun h => absurd rfl h
  failedExtract := nofun

theorem Memory.wf_nil : Memory.wf [] := ⟨List.Pairwise.nil, List.forall_mem_nil _⟩

/-- The invariants of a frame and of a run are about a busy block and about MODE EMBED and EXTRACT, and power-on leaves neither. -/
theorem State.powerOn_inv (b : Build) : (State.powerOn b).Inv where
  status := State.powerOn_statusInv b
  frame := nofun
  embed := nofun
  extract := nofun
  step := legalStep_four_mul_one b
  fmem := Memory.wf_nil
  pmem := Memory.wf_nil

/-- Settles O53: the power-on state of every build meets the invariant, and `State.reset` is the one of the model's build. -/
theorem resetMeetsInvariant : Obligations.ResetMeetsInvariant :=
  ⟨State.powerOn_inv, State.powerOn_inv Config.build⟩

end Sys2Proof.Machine
end

section
/-! PROOFS. What one step does to the run it belongs to (10_state.md R36, R58; 45_system.md R272..R276): a relation between two states of
the same run, what a block step leaves alone, and what each command does when BUSY = 0. -/

namespace Sys2Proof.Machine

/-! ### Two states of the same run -/

/-- `t` follows `s` in the same run: the fields that R36, the run's invariants and the latches speak of are those of `s`, OVERRUN is not
cleared, and a busy frame is at the same block. -/
structure State.SameRun (s t : State) : Prop where
  build : t.build = s.build := by rfl
  busy : t.busy = s.busy := by rfl
  mode : t.mode = s.mode := by rfl
  run : t.run = s.run := by rfl
  hdrValid : t.hdrValid = s.hdrValid := by rfl
  exhausted : t.exhausted = s.exhausted := by rfl
  partialEmb : t.partialEmb = s.partialEmb := by rfl
  runErr : t.runErr = s.runErr := by rfl
  bitsDone : t.bitsDone = s.bitsDone := by rfl
  bitsReq : t.bitsReq = s.bitsReq := by rfl
  hdr : t.hdr = s.hdr := by rfl
  lq : t.lq = s.lq := by rfl
  lcrow : t.lcrow = s.lcrow := by rfl
  lccol : t.lccol = s.lccol := by rfl
  lw : t.lw = s.lw := by rfl
  lh : t.lh = s.lh := by rfl
  llen : t.llen = s.llen := by rfl
  overrun : s.overrun = true → t.overrun = true := by exact id
  position : s.busy = true → t.iterValid = s.iterValid ∧ t.iterRow = s.iterRow ∧ t.iterCol = s.iterCol := by
    exact fun _ => ⟨rfl, rfl, rfl⟩

theorem State.SameRun.trans {s u t : State} (h : s.SameRun u) (k : u.SameRun t) : s.SameRun t where
  build := k.build.trans h.build
  busy := k.busy.trans h.busy
  mode := k.mode.trans h.mode
  run := k.run.trans h.run
  hdrValid := k.hdrValid.trans h.hdrValid
  exhausted := k.exhausted.trans h.exhausted
  partialEmb := k.partialEmb.trans h.partialEmb
  runErr := k.runErr.trans h.runErr
  bitsDone := k.bitsDone.trans h.bitsDone
  bitsReq := k.bitsReq.trans h.bitsReq
  hdr := k.hdr.trans h.hdr
  lq := k.lq.trans h.lq
  lcrow := k.lcrow.trans h.lcrow
  lccol := k.lccol.trans h.lccol
  lw := k.lw.trans h.lw
  lh := k.lh.trans h.lh
  llen := k.llen.trans h.llen
  overrun := k.overrun ∘ h.overrun
  position hb := by
    obtain ⟨hv, hr, hc⟩ := h.position hb
    obtain ⟨kv, kr, kc⟩ := k.position (h.busy.trans hb)
    exact ⟨kv.trans hv, kr.trans hr, kc.trans hc⟩

/-- The latched configuration of `t` is that of `s` (10_state.md R58). -/
def State.SameLatches (s t : State) : Prop :=
  t.lq = s.lq ∧ t.lcrow = s.lcrow ∧ t.lccol = s.lccol ∧ t.lw = s.lw ∧ t.lh = s.lh ∧ t.llen = s.llen

theorem State.SameRun.sameLatches {s t : State} (h : s.SameRun t) : s.SameLatches t :=
  ⟨h.lq, h.lcrow, h.lccol, h.lw, h.lh, h.llen⟩

theorem State.SameLatches.trans {s u t : State} (h : s.SameLatches u) (k : u.SameLatches t) : s.SameLatches t := by
  obtain ⟨hq, hr, hc, hw, hh, hl⟩ := h
  obtain ⟨kq, kr, kc, kw, kh, kl⟩ := k
  exact ⟨kq.trans hq, kr.trans hr, kc.trans hc, kw.trans hw, kh.trans hh, kl.trans hl⟩

theorem State.setInputs_sameRun (s : State) (es : List Event) : s.SameRun (s.setInputs es) := {}

theorem State.setRdData_sameRun (s : State) (v : Word) : s.SameRun (s.setRdData v) := {}

theorem State.setCmdErr_sameRun (s : State) (c : Code) : s.SameRun (s.setCmdErr c) := {}

theorem State.setOverrun_sameRun (s : State) : s.SameRun s.setOverrun := { overrun := fun _ => rfl }

/-- A live register is no part of the run (10_state.md R58). -/
theorem State.writeReg_sameRun (s : State) (r : Reg) (v : Word) : s.SameRun (s.writeReg r v) := by
  rw [State.writeReg_live]
  exact {}

/-- While no frame is busy, the results, the counts and the iterator's position are no part of the run: the writes of the standalone
commands stay in it. -/
theorem State.SameRun.of_results {s : State} (hb : s.busy = false) {err : Code} {coef : Word} {bit : Bool} {rlen roff cnt : Word}
    {exp obs : DWord} {valid : Bool} {row col : Half} :
    s.SameRun { s with
      cmdErr := err, coefOut := coef, bitOut := bit, resLen := rlen, resOff := roff, frameCnt := cnt, errExp := exp, errObs := obs,
      iterValid := valid, iterRow := row, iterCol := col } :=
  { position := fun h => (nomatch hb.symm.trans h) }

/-! ### What a block step leaves alone -/

/-- An embed block step writes neither the build, MODE, OVERRUN nor a latch. -/
theorem embedBlock_frame {x : Transform} {s t : State} (h : embedBlock x s = .next t) :
    t.build = s.build ∧ t.mode = s.mode ∧ t.overrun = s.overrun ∧ s.SameLatches t := by
  obtain ⟨-, -, rfl⟩ := embedBlock_next h
  exact ⟨rfl, rfl, rfl, rfl, rfl, rfl, rfl, rfl, rfl⟩

/-- An extract block step writes neither the build, MODE, OVERRUN nor a latch. -/
theorem extractBlock_frame {x : Transform} {s t : State} (h : extractBlock x s = .next t) :
    t.build = s.build ∧ t.mode = s.mode ∧ t.overrun = s.overrun ∧ s.SameLatches t := by
  obtain ⟨-, -, h⟩ := extractBlock_next h
  rw [State.appendBit_frame] at h
  obtain ⟨-, -, hbuild, hover, hmode, hlatches⟩ := State.checkHeader_frame h
  exact ⟨hbuild, hmode, hover, hlatches⟩

/-! ### What a command does to the run -/

/-- What a command answers when BUSY = 0: it stays in the run, or it is a START, a frame command with the stream not at its end, an END
of an active run, or ABORT. -/
inductive CommandEffect (s : State) : Instr → State → Prop
  | standalone {i : Instr} {t : State} (h : s.SameRun t) : CommandEffect s i t
  | embStart (hq : legalStep s.q = true) :
      CommandEffect s .embStart ((s.startRun .embed s.payLen (streamBits s.build s.payLen.toNat)).setCmdErr .ok)
  | extStart (hq : legalStep s.q = true) :
      CommandEffect s .extStart
        (State.setCmdErr { s.startRun .extract 0 0 with hdr := Vector.replicate 64 0, byteSr := 0 } .ok)
  | frame {i : Instr} (hr : s.run = .active) (he : s.mode = .embed → s.exhausted = false) :
      CommandEffect s i (s.countFrame.beginFrame.setCmdErr .ok)
  | embEnd (hm : s.mode = .embed) (hr : s.run = .active) (p : Bool) (e o : DWord) :
      CommandEffect s .embEnd { s with run := .done, partialEmb := p, errExp := e, errObs := o, cmdErr := .ok }
  | extEnd (hm : s.mode = .extract) (hr : s.run = .active) (e o : DWord) :
      CommandEffect s .extEnd
        { s with run := .failed, runErr := .streamTruncated, errExp := e, errObs := o, cmdErr := .streamTruncated }
  | abort : CommandEffect s .abort (s.endRun.setCmdErr .ok)

theorem execIterReset_effect {s : State} (hb : s.busy = false) : ∃ t, execIterReset s = .next t ∧ CommandEffect s .iterReset t := by
  unfold execIterReset whenNoActiveRun
  rw [whenReady_idle hb]
  split
  · exact ⟨_, rfl, .standalone (.of_results hb)⟩
  · exact ⟨_, rfl, .standalone (.of_results hb)⟩

theorem execIterNext_effect {s : State} (hb : s.busy = false) : ∃ t, execIterNext s = .next t ∧ CommandEffect s .iterNext t := by
  unfold execIterNext whenNoActiveRun
  rw [whenReady_idle hb]
  split
  · exact ⟨_, rfl, .standalone (.of_results hb)⟩
  · dsimp only
    split
    · exact ⟨_, rfl, .standalone (.of_results hb)⟩
    · exact ⟨_, rfl, .standalone (.of_results hb)⟩

theorem execQenc_effect (b : Bool) {s : State} (hb : s.busy = false) : ∃ t, execQenc b s = .next t ∧ CommandEffect s (.qenc b) t := by
  unfold execQenc
  rw [whenReady_idle hb]
  split
  · exact ⟨_, rfl, .standalone (.of_results hb)⟩
  · exact ⟨_, rfl, .standalone (.of_results hb)⟩

theorem execQdec_effect {s : State} (hb : s.busy = false) : ∃ t, execQdec s = .next t ∧ CommandEffect s .qdec t := by
  unfold execQdec
  rw [whenReady_idle hb]
  split
  · exact ⟨_, rfl, .standalone (.of_results hb)⟩
  · exact ⟨_, rfl, .standalone (.of_results hb)⟩

theorem execSerBit_effect {s : State} (hb : s.busy = false) : ∃ t, execSerBit s = .next t ∧ CommandEffect s .serBit t := by
  unfold execSerBit
  rw [whenReady_idle hb]
  dsimp only
  split
  · exact ⟨_, rfl, .standalone (.of_results hb)⟩
  · exact ⟨_, rfl, .standalone (.of_results hb)⟩

theorem execParse_effect {s : State} (hb : s.busy = false) : ∃ t, execParse s = .next t ∧ CommandEffect s .parse t := by
  unfold execParse
  rw [whenReady_idle hb]
  cases parseFn s.build s.pmemByte s.parseLen.toNat with
  | incompleteHeader e o => exact ⟨_, rfl, .standalone (.of_results hb)⟩
  | markerMismatch e o => exact ⟨_, rfl, .standalone (.of_results hb)⟩
  | truncatedPayload e o => exact ⟨_, rfl, .standalone (.of_results hb)⟩
  | payload off len => exact ⟨_, rfl, .standalone (.of_results hb)⟩

theorem execEmbStart_effect {s : State} (hb : s.busy = false) : ∃ t, execEmbStart s = .next t ∧ CommandEffect s .embStart t := by
  unfold execEmbStart
  rw [whenReady_idle hb]
  split
  · next hq => exact ⟨_, rfl, .embStart hq⟩
  · exact ⟨_, rfl, .standalone (.of_results hb)⟩

theorem execExtStart_effect {s : State} (hb : s.busy = false) : ∃ t, execExtStart s = .next t ∧ CommandEffect s .extStart t := by
  unfold execExtStart
  rw [whenReady_idle hb]
  split
  · next hq => exact ⟨_, rfl, .extStart hq⟩
  · exact ⟨_, rfl, .standalone (.of_results hb)⟩

theorem execEmbFrame_effect {s : State} (hb : s.busy = false) : ∃ t, execEmbFrame s = .next t ∧ CommandEffect s .embFrame t := by
  unfold execEmbFrame
  rw [whenReady_idle hb]
  split
  · next hr =>
    split
    · exact ⟨_, rfl, .standalone (.of_results hb)⟩
    · next he => exact ⟨_, rfl, .frame hr.2 fun _ => Bool.eq_false_of_not_eq_true he⟩
  · exact ⟨_, rfl, .standalone (.of_results hb)⟩

theorem execExtFrame_effect {s : State} (hb : s.busy = false) : ∃ t, execExtFrame s = .next t ∧ CommandEffect s .extFrame t := by
  unfold execExtFrame
  rw [whenReady_idle hb]
  split
  · next hr => exact ⟨_, rfl, .frame hr.2 fun hm => nomatch hr.1.symm.trans hm⟩
  · exact ⟨_, rfl, .standalone (.of_results hb)⟩

theorem execEmbEnd_effect {s : State} (hb : s.busy = false) : ∃ t, execEmbEnd s = .next t ∧ CommandEffect s .embEnd t := by
  unfold execEmbEnd
  rw [whenReady_idle hb]
  split
  · next hm =>
    split
    · next hr =>
      split
      · exact ⟨_, rfl, .embEnd hm hr _ _ _⟩
      · exact ⟨_, rfl, .embEnd hm hr _ _ _⟩
    · exact ⟨_, rfl, .standalone (.of_results hb)⟩
  · exact ⟨_, rfl, .standalone (.of_results hb)⟩

theorem execExtEnd_effect {s : State} (hb : s.busy = false) : ∃ t, execExtEnd s = .next t ∧ CommandEffect s .extEnd t := by
  unfold execExtEnd
  rw [whenReady_idle hb]
  split
  · next hm =>
    split
    · next hr => exact ⟨_, rfl, .extEnd hm hr _ _⟩
    · exact ⟨_, rfl, .standalone (.of_results hb)⟩
  · exact ⟨_, rfl, .standalone (.of_results hb)⟩

/-- Every command issued while BUSY = 0 answers a next state, by one of the effects. -/
theorem exec_effect (i : Instr) {s : State} (hb : s.busy = false) : ∃ t, exec i s = .next t ∧ CommandEffect s i t := by
  cases i with
  | nop => exact ⟨_, whenReady_idle hb _, .standalone (.of_results hb)⟩
  | qenc b => exact execQenc_effect b hb
  | qdec => exact execQdec_effect hb
  | iterReset => exact execIterReset_effect hb
  | iterNext => exact execIterNext_effect hb
  | serBit => exact execSerBit_effect hb
  | parse => exact execParse_effect hb
  | embStart => exact execEmbStart_effect hb
  | embFrame => exact execEmbFrame_effect hb
  | embEnd => exact execEmbEnd_effect hb
  | extStart => exact execExtStart_effect hb
  | extFrame => exact execExtFrame_effect hb
  | extEnd => exact execExtEnd_effect hb
  | abort => exact ⟨_, whenReady_idle hb fun s => succeed s.endRun, .abort⟩

end Sys2Proof.Machine
end

section
/-! PROOFS. The cases of a step: the event it took and what it did to the run (45_system.md R272..R276; 30_encoding.md R104, R106).
The claims about every step are proved along these cases. -/

namespace Sys2Proof

/-- A word is the concatenation of its fields RSVD, B and OP (30_encoding.md R100). -/
theorem word_eq_of_fields {v w : Word} (hr : rsvdField v = rsvdField w) (hb : bField v = bField w) (ho : opField v = opField w) :
    v = w := by
  replace hr : v.extractLsb' 9 23 = w.extractLsb' 9 23 := BitVec.eq_of_toNat_eq hr
  replace ho : v.extractLsb' 0 8 = w.extractLsb' 0 8 := BitVec.eq_of_toNat_eq ho
  refine BitVec.eq_of_getLsbD_eq fun k hk => ?_
  rcases Nat.lt_trichotomy k 8 with h | rfl | h
  · simpa [BitVec.getLsbD_extractLsb', h] using congrArg (BitVec.getLsbD · k) ho
  · exact hb
  · have h23 : k - 9 < 23 := by omega
    have h9 : 9 + (k - 9) = k := by omega
    simpa [BitVec.getLsbD_extractLsb', h23, h9] using congrArg (BitVec.getLsbD · (k - 9)) hr

/-- The map gives a command only its own OP, and takes B from the word for QENC alone (30_encoding.md R104). -/
theorem opField_encode_of_instrOfOp {op : Nat} {b : Bool} {i : Instr} (h : instrOfOp op b = some i) :
    op = opField (encode i) ∧ rsvdField (encode i) = 0 ∧ bField (encode i) = (b && op == 0x01) := by
  unfold instrOfOp at h
  split at h <;> cases h <;> cases b <;> decide

/-- A legal word is the word of its command (30_encoding.md R101, R104, R105). -/
theorem eq_encode_of_decode {w : Word} {i : Instr} (h : decode w = .instr i) : w = encode i := by
  unfold decode at h
  split at h
  · cases h
  · next hr =>
    split at h
    · cases h
    · next j hj =>
      split at h
      · cases h
      · next hb =>
        obtain rfl := Decoded.instr.inj h
        obtain ⟨eop, ersvd, eb⟩ := opField_encode_of_instrOfOp hj
        refine word_eq_of_fields ((not_not.1 hr).trans ersvd.symm) ?_ eop
        rw [eb]
        cases hw : bField w with
        | true =>
          have hop : opField w = 0x01 := by simpa [hw] using hb
          rw [hop]
          rfl
        | false => rfl

end Sys2Proof

namespace Sys2Proof.Machine

/-- The cases of a step. It stays in the run, or it is a block step of a state `u` of the same run (the state itself, or the one with
its Core event taken), a Reset, or a command issued while BUSY = 0. -/
inductive StepEffect (s t : State) : Prop
  | same (h : s.SameRun t)
  | embed (u : State) (hu : s.SameRun u) (hb : u.busy = true) (hm : u.mode = .embed) (h : embedBlock Config.transform u = .next t)
  | extract (u : State) (hu : s.SameRun u) (hb : u.busy = true) (hm : u.mode = .extract)
      (h : extractBlock Config.transform u = .next t)
  | reset (rest : List Event) (hi : s.inputs = .reset :: rest) (h : resetEvent (s.setInputs rest) = .next t)
  | command (i : Instr) (rest : List Event) (hi : s.inputs = .regWrite 0x000 32 (encode i) :: rest) (hb : s.busy = false)
      (h : CommandEffect (s.setInputs rest) i t)

theorem coreTurn_effect {s u t : State} (hu : s.SameRun u) (h : coreTurn Config.transform u = .next t) : StepEffect s t := by
  rcases coreTurn_next h with ⟨-, rfl⟩ | ⟨hb, hm, h⟩ | ⟨hb, hm, h⟩
  · exact .same hu
  · exact .embed u hu hb hm h
  · exact .extract u hu hb hm h

/-- A write of any word to CMD: it is dropped, illegal, or a command issued while BUSY = 0. -/
theorem cmdWrite_effect {s t : State} {w : Word} (h : cmdWrite w s = .next t) :
    s.SameRun t ∨ ∃ i, w = encode i ∧ s.busy = false ∧ CommandEffect s i t := by
  rcases cmdWrite_cases w s with ⟨i, hd, e⟩ | ⟨-, -, e⟩ <;> rw [e] at h
  · cases hb : s.busy with
    | true => exact .inl (Host.Outcome.next.inj (exec_busy i hb ▸ h) ▸ s.setOverrun_sameRun)
    | false =>
      obtain ⟨u, hu, hc⟩ := exec_effect i hb
      obtain rfl := Host.Outcome.next.inj (hu.symm.trans h)
      exact .inr ⟨i, eq_encode_of_decode hd, rfl, hc⟩
  · rcases whenReady_next h with ⟨-, rfl⟩ | ⟨-, h⟩
    · exact .inl s.setOverrun_sameRun
    · exact .inl (Host.Outcome.next.inj h ▸ s.setCmdErr_sameRun _)

/-- A register access that is taken is 32 bits wide at a multiple of 4 (10_state.md R23). -/
theorem registerAccess_iff {off : BitVec 12} {width : Nat} : registerAccess off width = true ↔ width = 32 ∧ off.toNat % 4 = 0 := by
  simp [registerAccess]

theorem regWrite_effect {s t : State} {off : BitVec 12} {width : Nat} {v : Word} (h : regWrite off width v s = .next t) :
    s.SameRun t ∨ ∃ i, off = 0x000 ∧ width = 32 ∧ v = encode i ∧ s.busy = false ∧ CommandEffect s i t := by
  rcases regWrite_next h with ⟨ha, ⟨ho, hw⟩ | ⟨-, ⟨r, -, rfl⟩ | ⟨-, rfl⟩⟩⟩
  · obtain ⟨rfl, -⟩ := registerAccess_iff.1 ha
    exact (cmdWrite_effect hw).imp id fun ⟨i, hv, hb, hc⟩ => ⟨i, BitVec.eq_of_toNat_eq ho, rfl, hv, hb, hc⟩
  · exact .inl (s.writeReg_sameRun r v)
  · exact .inl {}

theorem regRead_next {s t : State} {off : BitVec 12} {width : Nat} (h : regRead off width s = .next t) :
    t = s.setRdData (s.readOffset off.toNat) := by
  unfold regRead at h
  split at h
  · exact (Host.Outcome.next.inj h).symm
  · cases h

/-- All that a step can do to the run. -/
theorem step_effect {s t : State} (h : step s = .next t) : StepEffect s t := by
  rw [step_eq] at h
  rcases machineStep_cases Config.transform s with e | ⟨ev, rest, hi, -, e⟩ <;> rw [e] at h
  · exact coreTurn_effect {} h
  · have hs := s.setInputs_sameRun rest
    cases ev with
    | coreTurn => exact coreTurn_effect hs h
    | reset => exact .reset rest hi h
    | regWrite off width v =>
      rcases regWrite_effect h with h | ⟨i, rfl, rfl, rfl, hb, h⟩
      · exact .same (hs.trans h)
      · exact .command i rest hi hb h
    | regRead off width => exact .same (regRead_next h ▸ hs.trans (State.setRdData_sameRun _ _))
    | wait => exact .same (Host.Outcome.next.inj h ▸ hs.trans (State.setRdData_sameRun _ _))
    | fmemWrite a v => exact .same (Host.Outcome.next.inj h ▸ {})
    | fmemRead a => exact .same (Host.Outcome.next.inj h ▸ hs.trans (State.setRdData_sameRun _ _))
    | pmemWrite a v => exact .same (Host.Outcome.next.inj h ▸ {})
    | pmemRead a => exact .same (Host.Outcome.next.inj h ▸ hs.trans (State.setRdData_sameRun _ _))

end Sys2Proof.Machine
end

section
/-! PROOFS. Every step keeps the relations between the fields of STATUS (10_state.md R36). -/

namespace Sys2Proof.Machine

variable {s t : State}

theorem State.StatusInv.of_sameRun (hs : s.StatusInv) (h : s.SameRun t) : t.StatusInv where
  noneIdle := by rw [h.mode, h.run]; exact hs.noneIdle
  busyActive := by rw [h.busy, h.run]; exact hs.busyActive
  hdrExtract := by rw [h.hdrValid, h.mode]; exact hs.hdrExtract
  exhaustedEmbed := by rw [h.exhausted, h.mode]; exact hs.exhaustedEmbed
  partialDone := by rw [h.partialEmb, h.mode, h.run]; exact hs.partialDone
  errFailed := by rw [h.runErr, h.mode, h.run]; exact hs.errFailed
  failedExtract := by rw [h.run, h.mode]; exact hs.failedExtract

/-- In an active run neither PARTIAL nor RUN_ERR is set (10_state.md R31, R33). -/
theorem State.StatusInv.of_active (hs : s.StatusInv) (hr : s.run = .active) : s.partialEmb = false ∧ s.runErr = .ok := by
  constructor
  · by_contra hp
    exact nomatch hr.symm.trans (hs.partialDone (Bool.eq_true_of_not_eq_false hp)).2
  · by_contra he
    exact nomatch hr.symm.trans (hs.errFailed he).2

/-- An active run with its flags clear, as after a START (43_embed.md R211; 44_extract.md R240). -/
theorem State.StatusInv.of_start (hm : s.mode ≠ .none) (hr : s.run = .active) (hh : s.hdrValid = false) (he : s.exhausted = false)
    (hp : s.partialEmb = false) (hc : s.runErr = .ok) : s.StatusInv where
  noneIdle := iff_of_false hm (by rw [hr]; exact nofun)
  busyActive := fun _ => hr
  hdrExtract := fun h => (nomatch hh.symm.trans h)
  exhaustedEmbed := fun h => (nomatch he.symm.trans h)
  partialDone := fun h => (nomatch hp.symm.trans h)
  errFailed := fun h => absurd hc h
  failedExtract := fun h => (nomatch hr.symm.trans h)

/-! ### Commands and Reset -/

/-- A command issued while BUSY = 0 keeps the relations: a START and a frame command leave an active run, an END a run that is over, and
ABORT none. -/
theorem CommandEffect.statusInv {i : Instr} (hs : s.StatusInv) (hb : s.busy = false) (h : CommandEffect s i t) : t.StatusInv := by
  cases h with
  | standalone h => exact hs.of_sameRun h
  | embStart hq => exact .of_start nofun rfl rfl rfl rfl rfl
  | extStart hq => exact .of_start nofun rfl rfl rfl rfl rfl
  | frame hr he =>
    exact { hs with busyActive := fun _ => hr }
  | embEnd hm hr p e o =>
    exact { hs with
      noneIdle := iff_of_false (fun h => nomatch hm.symm.trans h) nofun
      busyActive := fun h => nomatch hb.symm.trans h
      partialDone := fun _ => ⟨hm, rfl⟩
      errFailed := fun h => absurd (hs.of_active hr).2 h
      failedExtract := nofun }
  | extEnd hm hr e o =>
    exact { hs with
      noneIdle := iff_of_false (fun h => nomatch hm.symm.trans h) nofun
      busyActive := fun h => nomatch hb.symm.trans h
      partialDone := fun h => nomatch (hs.of_active hr).1.symm.trans h
      errFailed := fun _ => ⟨hm, rfl⟩
      failedExtract := fun _ => hm }
  | abort =>
    exact {
      noneIdle := iff_of_true rfl rfl
      busyActive := fun h => nomatch hb.symm.trans h
      hdrExtract := nofun
      exhaustedEmbed := nofun
      partialDone := nofun
      errFailed := fun h => absurd rfl h
      failedExtract := nofun }

/-- A Reset leaves the registers of power-on (10_state.md R60). -/
theorem powerOn_sameRun_of_resetEvent (h : resetEvent s = .next t) : (State.powerOn s.build).SameRun t := by
  rcases resetEvent_next h with ⟨-, -, -, rfl⟩ | ⟨-, -, -, -, rfl⟩ | ⟨-, -, rfl⟩
  · exact {}
  · exact {}
  · exact {}

/-! ### Block steps -/

theorem embedBlock_statusInv {x : Transform} (hs : s.StatusInv) (hb : s.busy = true) (hm : s.mode = .embed)
    (h : embedBlock x s = .next t) : t.StatusInv := by
  obtain ⟨-, -, rfl⟩ := embedBlock_next h
  exact { hs with busyActive := fun _ => hs.busyActive hb, exhaustedEmbed := fun _ => hm }

/-- Appending a bit and moving to the next block writes no field of STATUS but ITER_VALID. -/
theorem State.appended_statusInv (hs : s.StatusInv) (b : Bool) : (s.appendBit b).advance.StatusInv := by
  rw [State.appendBit_frame]
  exact { hs with }

theorem State.appended_run (s : State) (b : Bool) :
    (s.appendBit b).advance.mode = s.mode ∧ (s.appendBit b).advance.run = s.run := by
  rw [State.appendBit_frame]
  exact ⟨rfl, rfl⟩

/-- Completion ends the run; otherwise only BUSY may fall (44_extract.md R246, R247). -/
theorem State.completeOrWait_statusInv (hs : s.StatusInv) (hm : s.mode = .extract) (hr : s.run = .active) :
    s.completeOrWait.StatusInv := by
  rcases s.completeOrWait_cases with ⟨-, -, e⟩ | ⟨-, e⟩ <;> rw [e]
  · exact { hs with
      noneIdle := iff_of_false (fun h => nomatch hm.symm.trans h) nofun
      busyActive := nofun
      partialDone := fun h => nomatch (hs.of_active hr).1.symm.trans h
      errFailed := fun h => absurd (hs.of_active hr).2 h
      failedExtract := nofun }
  · exact { hs with busyActive := fun _ => hr }

theorem State.checkHeader_statusInv (hs : s.StatusInv) (hm : s.mode = .extract) (hr : s.run = .active)
    (h : s.checkHeader = .next t) : t.StatusInv := by
  rcases State.checkHeader_next h with ⟨-, -, -, rfl⟩ | ⟨-, -, -, rfl⟩ | ⟨-, rfl⟩
  · exact { hs with
      noneIdle := iff_of_false (fun h => nomatch hm.symm.trans h) nofun
      busyActive := nofun
      partialDone := fun h => nomatch (hs.of_active hr).1.symm.trans h
      errFailed := fun _ => ⟨hm, rfl⟩
      failedExtract := fun _ => hm }
  · exact State.completeOrWait_statusInv { hs with hdrExtract := fun _ => hm } hm hr
  · exact State.completeOrWait_statusInv hs hm hr

theorem extractBlock_statusInv {x : Transform} (hs : s.StatusInv) (hb : s.busy = true) (hm : s.mode = .extract)
    (h : extractBlock x s = .next t) : t.StatusInv := by
  obtain ⟨-, -, h⟩ := extractBlock_next h
  obtain ⟨em, er⟩ := s.appended_run (extractedBit x s)
  exact State.checkHeader_statusInv (State.appended_statusInv hs _) (em.trans hm) (er.trans (hs.busyActive hb)) h

end Sys2Proof.Machine

namespace Sys2Proof.Machine

/-- Settles O54, by the cases of a step. -/
theorem statusRelationsKept : Obligations.StatusRelationsKept := by
  intro s t hs h
  cases step_effect h with
  | same h => exact hs.of_sameRun h
  | embed u hu hb hm h => exact embedBlock_statusInv (hs.of_sameRun hu) hb hm h
  | extract u hu hb hm h => exact extractBlock_statusInv (hs.of_sameRun hu) hb hm h
  | reset rest _ h => exact (State.powerOn_statusInv _).of_sameRun (powerOn_sameRun_of_resetEvent h)
  | command i rest _ hb h => exact h.statusInv (hs.of_sameRun (s.setInputs_sameRun rest)) hb

end Sys2Proof.Machine
end

section
/-! PROOFS. Every step keeps the invariant of a run: a busy frame at a complete block, the cursor of an embed run, the accumulator of an
extract run, a legal latched step (10_state.md R29, R30, R34, R50, R51), and memories in canonical form (log 6). -/

namespace Sys2Proof.Machine

variable {s t : State}

/-! ### A block inside the latched frame -/

/-- A complete block of a frame: 8 x 8 samples at a multiple of 8 (42_iterator.md R190). -/
structure CompleteBlock (w h row col : Half) : Prop where
  row_mod : row.toNat % 8 = 0
  col_mod : col.toNat % 8 = 0
  row_le : row.toNat + 8 ≤ h.toNat
  col_le : col.toNat + 8 ≤ w.toNat

/-- Next goes from a complete block to a complete block, if it goes on (42_iterator.md R192). -/
theorem iterStep_completeBlock {w h row col : Half} (hp : CompleteBlock w h row col) (hv : (iterStep w h row col).1 = true) :
    CompleteBlock w h (iterStep w h row col).2.1 (iterStep w h row col).2.2 := by
  obtain ⟨hr8, hc8, hr, hc⟩ := hp
  rcases iterStep_cases w h row col with ⟨hw, e⟩ | ⟨-, hh, e⟩ | ⟨-, -, e⟩ <;> rw [e] at hv ⊢ <;> dsimp only at hv ⊢
  · have e8 := add_eight_toNat hw
    exact ⟨hr8, by omega, hr, by omega⟩
  · have e8 := add_eight_toNat hh
    exact ⟨by omega, rfl, by omega, (Nat.le_add_left 8 _).trans hc⟩
  · cases hv

theorem State.frameInv_iff : s.FrameInv ↔ (s.busy = true → s.iterValid = true ∧ CompleteBlock s.lw s.lh s.iterRow s.iterCol) :=
  ⟨fun h hb => (h hb).imp id fun ⟨hr8, hc8, hr, hc⟩ => ⟨hr8, hc8, hr, hc⟩,
    fun h hb => (h hb).imp id fun ⟨hr8, hc8, hr, hc⟩ => ⟨hr8, hc8, hr, hc⟩⟩

theorem State.FrameInv.of_idle (hb : s.busy = false) : s.FrameInv := fun h => nomatch hb.symm.trans h

/-- A frame command begins at the first block, busy only when there is one (43_embed.md R212; 44_extract.md R242). -/
theorem State.beginFrame_frameInv (s : State) : s.beginFrame.FrameInv := by
  intro hb
  obtain ⟨hw, hh⟩ := of_decide_eq_true hb
  exact ⟨hb, rfl, rfl, (Nat.zero_add 8).symm ▸ hh, (Nat.zero_add 8).symm ▸ hw⟩

/-- The position after the block of a busy frame is a complete block while it is valid. -/
theorem State.advance_completeBlock (hs : s.FrameInv) (hb : s.busy = true) (hv : s.advance.iterValid = true) :
    CompleteBlock s.advance.lw s.advance.lh s.advance.iterRow s.advance.iterCol :=
  iterStep_completeBlock (State.frameInv_iff.1 hs hb).2 hv

/-- BUSY stays set only at a valid position. -/
theorem State.completeOrWait_frameInv (h : s.iterValid = true → CompleteBlock s.lw s.lh s.iterRow s.iterCol) :
    s.completeOrWait.FrameInv := by
  rcases s.completeOrWait_cases with ⟨-, -, e⟩ | ⟨-, e⟩ <;> rw [e]
  · exact .of_idle rfl
  · refine State.frameInv_iff.2 fun hb => ?_
    obtain ⟨-, hv⟩ := (Bool.and_eq_true _ _).mp hb
    exact ⟨hv, h hv⟩

theorem State.checkHeader_frameInv (hv : s.iterValid = true → CompleteBlock s.lw s.lh s.iterRow s.iterCol)
    (h : s.checkHeader = .next t) : t.FrameInv := by
  rcases State.checkHeader_next h with ⟨-, -, -, rfl⟩ | ⟨-, -, -, rfl⟩ | ⟨-, rfl⟩
  · exact .of_idle rfl
  · exact State.completeOrWait_frameInv hv
  · exact State.completeOrWait_frameInv hv

/-! ### The cursor of an embed run -/

/-- A 64-bit count below another one counts on without a wrap. -/
theorem toNat_add_one_of_lt {n m : DWord} (h : n.toNat < m.toNat) : (n + 1).toNat = n.toNat + 1 := by
  have := m.isLt
  rw [BitVec.toNat_add, show (1 : DWord).toNat = 1 from rfl]
  omega

/-- The stream of a 32-bit length has more than 0 and less than 2^64 bits (40_framing.md R133). -/
theorem streamBits_toNat (b : Build) (len : Word) :
    (BitVec.ofNat 64 (streamBits b len.toNat)).toNat = streamBits b len.toNat ∧ 0 < streamBits b len.toNat := by
  have := ml_le b
  have := len.isLt
  rw [BitVec.toNat_ofNat, streamBits]
  omega

/-- An embed block step moves the cursor by one, and EXHAUSTED says whether that was the last bit (43_embed.md R213..R215). -/
theorem embedBlock_embedInv {x : Transform} (hs : s.EmbedInv) (hb : s.busy = true) (hm : s.mode = .embed)
    (h : embedBlock x s = .next t) : t.EmbedInv := by
  obtain ⟨hreq, hle, hex, hbusy⟩ := hs hm
  have he := hbusy hb
  have hne : s.bitsDone.toNat ≠ s.bitsReq.toNat := fun e => nomatch he.symm.trans (hex.2 (BitVec.eq_of_toNat_eq e))
  have hlt : s.bitsDone.toNat < s.bitsReq.toNat := lt_of_le_of_ne hle hne
  obtain ⟨-, -, rfl⟩ := embedBlock_next h
  refine fun _ => ⟨hreq, (toNat_add_one_of_lt hlt).trans_le hlt, ?_, fun hb' => ?_⟩
  · simp [he]
  · simp only [Bool.and_eq_true, Bool.not_eq_true', Bool.or_eq_false_iff] at hb'
    simpa using hb'.2.1

/-! ### The accumulator of an extract run -/

/-- The accumulator between the append of a bit and the checks after it: at most the header while that is not valid, and at most the
declared stream once it is (44_extract.md R243..R246). -/
structure State.AccumInv (s : State) : Prop where
  header : s.hdrValid = false → s.bitsDone.toNat ≤ headerBits s.build ∧ s.bitsReq = 0
  valid : s.hdrValid = true →
    markerMatchBits s.build s.hdrByte = 8 * s.build.ml ∧ s.bitsReq.toNat = headerBits s.build + 8 * lengthField s.build s.hdrByte
      ∧ headerBits s.build ≤ s.bitsDone.toNat ∧ s.bitsDone.toNat ≤ s.bitsReq.toNat

theorem State.hdrByte_congr (h : t.hdr = s.hdr) : t.hdrByte = s.hdrByte := by
  funext k
  rw [State.hdrByte, State.hdrByte, h]

/-- Appending a bit in an active run keeps the bounds: before the append the accumulator was short of the header or of the stream. -/
theorem State.appended_accumInv (hs : s.ExtractInv) (hm : s.mode = .extract) (hr : s.run = .active) (b : Bool) :
    (s.appendBit b).advance.AccumInv := by
  obtain ⟨hheader, hvalid⟩ := hs hm
  cases hv : s.hdrValid with
  | false =>
    obtain ⟨-, hreq, hact, -⟩ := hheader hv
    have hlt := hact hr
    have hinc : (s.bitsDone + 1).toNat = s.bitsDone.toNat + 1 := by
      refine toNat_add_one_of_lt (m := BitVec.ofNat 64 512) (hlt.trans_le ?_)
      exact headerBits_le _
    rw [State.appendBit_header b hlt]
    exact ⟨fun _ => ⟨hinc.trans_le hlt, hreq⟩, fun h => nomatch hv.symm.trans h⟩
  | true =>
    obtain ⟨hmark, hreq, hge, -, hact, -⟩ := hvalid hv
    have hlt := hact hr
    have hinc := toNat_add_one_of_lt hlt
    have hbounds : headerBits s.build ≤ (s.bitsDone + 1).toNat ∧ (s.bitsDone + 1).toNat ≤ s.bitsReq.toNat := by omega
    by_cases h7 : (s.bitsDone.toNat - headerBits s.build) % 8 = 7
    · rw [State.appendBit_store b hge h7]
      exact ⟨fun h => (nomatch hv.symm.trans h), fun _ => ⟨hmark, hreq, hbounds⟩⟩
    · rw [State.appendBit_shift b hge h7]
      exact ⟨fun h => (nomatch hv.symm.trans h), fun _ => ⟨hmark, hreq, hbounds⟩⟩

/-- The declared length of a header with the right marker makes it valid (44_extract.md R245). -/
theorem State.acceptHeader_accumInv (hd : s.bitsDone.toNat = headerBits s.build)
    (hmark : markerMatchBits s.build s.hdrByte = 8 * s.build.ml) : s.acceptHeader.AccumInv := by
  have hreq : (BitVec.ofNat 64 (headerBits s.build + 8 * lengthField s.build s.hdrByte)).toNat
      = headerBits s.build + 8 * lengthField s.build s.hdrByte := by
    have := headerBits_le s.build
    have := lengthField_lt s.build s.hdrByte
    rw [BitVec.toNat_ofNat]
    omega
  exact ⟨nofun, fun _ => ⟨hmark, hreq, hd.ge, hd.trans_le ((Nat.le_add_right _ _).trans_eq hreq.symm)⟩⟩

/-- An active run whose header is not just complete completes at BITS_REQ, and is short of it otherwise (44_extract.md R246). -/
theorem State.completeOrWait_extractInv (hs : s.AccumInv) (hr : s.run = .active)
    (hn : ¬(s.hdrValid = false ∧ s.bitsDone.toNat = headerBits s.build)) : s.completeOrWait.ExtractInv := by
  rcases s.completeOrWait_cases with ⟨hv, hd, e⟩ | ⟨hw, e⟩ <;> rw [e] <;> refine fun _ => ⟨fun hf => ?_, fun hv => ?_⟩
  · exact nomatch hv.symm.trans hf
  · obtain ⟨hmark, hreq, hge, hle⟩ := hs.valid hv
    exact ⟨hmark, hreq, hge, hle, nofun, fun _ => hd⟩
  · obtain ⟨hle, hreq⟩ := hs.header hf
    exact ⟨hle, hreq, fun _ => lt_of_le_of_ne hle fun e => hn ⟨hf, e⟩, fun h => nomatch hr.symm.trans h⟩
  · obtain ⟨hmark, hreq, hge, hle⟩ := hs.valid hv
    exact ⟨hmark, hreq, hge, hle, fun _ => lt_of_le_of_ne hle fun e => hw ⟨hv, BitVec.eq_of_toNat_eq e⟩,
      fun h => nomatch hr.symm.trans h⟩

theorem State.checkHeader_extractInv (hs : s.AccumInv) (hr : s.run = .active) (h : s.checkHeader = .next t) : t.ExtractInv := by
  rcases State.checkHeader_next h with ⟨hv, hd, -, rfl⟩ | ⟨-, hd, hmark, rfl⟩ | ⟨hn, rfl⟩
  · exact fun _ => ⟨fun _ => ⟨hd.le, (hs.header hv).2, nofun, nofun⟩, fun h => nomatch hv.symm.trans h⟩
  · exact State.completeOrWait_extractInv (State.acceptHeader_accumInv hd hmark) hr fun h => nomatch h.1
  · exact State.completeOrWait_extractInv hs hr hn

/-! ### The invariant of a run -/

/-- The invariant without the memories. -/
structure State.RunInv (s : State) : Prop where
  status : s.StatusInv
  frame : s.FrameInv
  embed : s.EmbedInv
  extract : s.ExtractInv
  step : legalStep s.lq = true

theorem State.Inv.runInv (hs : s.Inv) : s.RunInv := ⟨hs.status, hs.frame, hs.embed, hs.extract, hs.step⟩

theorem State.RunInv.of_sameRun (hs : s.RunInv) (h : s.SameRun t) : t.RunInv where
  status := hs.status.of_sameRun h
  frame hb := by
    rw [h.busy] at hb
    obtain ⟨hv, hr, hc⟩ := h.position hb
    rw [hv, hr, hc, h.lw, h.lh]
    exact hs.frame hb
  embed := by
    rw [State.EmbedInv, h.mode, h.bitsReq, h.build, h.llen, h.bitsDone, h.exhausted, h.busy]
    exact hs.embed
  extract := by
    rw [State.ExtractInv, h.mode, h.hdrValid, h.bitsDone, h.build, h.bitsReq, h.run, State.hdrByte_congr h.hdr]
    exact hs.extract
  step := h.lq ▸ hs.step

theorem CommandEffect.runInv {i : Instr} (hs : s.RunInv) (hb : s.busy = false) (h : CommandEffect s i t) : t.RunInv := by
  have hstatus := h.statusInv hs.status hb
  cases h with
  | standalone h => exact hs.of_sameRun h
  | embStart hq =>
    obtain ⟨hreq, hpos⟩ := streamBits_toNat s.build s.payLen
    refine ⟨hstatus, .of_idle hb, fun _ => ⟨hreq, Nat.zero_le _, ⟨nofun, fun e => ?_⟩, fun _ => rfl⟩, nofun, hq⟩
    exact absurd ((congrArg BitVec.toNat e).trans hreq) hpos.ne
  | extStart hq =>
    have hpos : 0 < headerBits s.build := by rw [headerBits_eq]; omega
    exact ⟨hstatus, .of_idle hb, nofun, fun _ => ⟨fun _ => ⟨Nat.zero_le _, rfl, fun _ => hpos, nofun⟩, nofun⟩, hq⟩
  | frame hr he =>
    refine ⟨hstatus, s.countFrame.beginFrame_frameInv, fun hm => ?_, hs.extract, hs.step⟩
    obtain ⟨hreq, hle, hex, -⟩ := hs.embed hm
    exact ⟨hreq, hle, hex, fun _ => he hm⟩
  | embEnd hm hr p e o => exact ⟨hstatus, .of_idle hb, hs.embed, fun h => (nomatch hm.symm.trans h), hs.step⟩
  | extEnd hm hr e o =>
    obtain ⟨hheader, hvalid⟩ := hs.extract hm
    refine ⟨hstatus, .of_idle hb, fun h => (nomatch hm.symm.trans h), fun _ => ⟨fun hv => ?_, fun hv => ?_⟩, hs.step⟩
    · obtain ⟨hle, hreq, -, -⟩ := hheader hv
      exact ⟨hle, hreq, nofun, nofun⟩
    · obtain ⟨hmark, hreq, hge, hle, -, -⟩ := hvalid hv
      exact ⟨hmark, hreq, hge, hle, nofun, nofun⟩
  | abort => exact ⟨hstatus, .of_idle hb, nofun, nofun, hs.step⟩

theorem embedBlock_runInv {x : Transform} (hs : s.RunInv) (hb : s.busy = true) (hm : s.mode = .embed)
    (h : embedBlock x s = .next t) : t.RunInv := by
  refine ⟨embedBlock_statusInv hs.status hb hm h, ?_, embedBlock_embedInv hs.embed hb hm h, ?_, ?_⟩ <;>
    obtain ⟨-, -, rfl⟩ := embedBlock_next h
  · refine State.frameInv_iff.2 fun hb' => ?_
    simp only [Bool.and_eq_true, Bool.not_eq_true', Bool.or_eq_false_iff, Bool.not_eq_false'] at hb'
    exact ⟨hb'.2.2, State.advance_completeBlock hs.frame hb hb'.2.2⟩
  · exact fun h => nomatch hm.symm.trans h
  · exact hs.step

theorem extractBlock_runInv {x : Transform} (hs : s.RunInv) (hb : s.busy = true) (hm : s.mode = .extract)
    (h : extractBlock x s = .next t) : t.RunInv := by
  have hr := hs.status.busyActive hb
  obtain ⟨-, hmode, -, hlq, -⟩ := extractBlock_frame h
  obtain ⟨-, -, hc⟩ := extractBlock_next h
  have hblock : (s.appendBit (extractedBit x s)).advance.iterValid = true → _ :=
    State.advance_completeBlock (by rw [State.appendBit_frame]; exact hs.frame) (by rw [State.appendBit_frame]; exact hb)
  exact ⟨extractBlock_statusInv hs.status hb hm h, State.checkHeader_frameInv hblock hc,
    fun h => (nomatch (hmode.trans hm).symm.trans h),
    State.checkHeader_extractInv (State.appended_accumInv hs.extract hm hr _) ((s.appended_run _).2.trans hr) hc, hlq ▸ hs.step⟩

theorem step_runInv (hs : s.RunInv) (h : step s = .next t) : t.RunInv := by
  cases step_effect h with
  | same h => exact hs.of_sameRun h
  | embed u hu hb hm h => exact embedBlock_runInv (hs.of_sameRun hu) hb hm h
  | extract u hu hb hm h => exact extractBlock_runInv (hs.of_sameRun hu) hb hm h
  | reset rest _ h => exact (State.powerOn_inv _).runInv.of_sameRun (powerOn_sameRun_of_resetEvent h)
  | command i rest _ hb h => exact h.runInv (hs.of_sameRun (s.setInputs_sameRun rest)) hb

/-! ### The memories -/

/-- Both memories in canonical form (log 6). -/
def State.MemoryWf (s : State) : Prop := Memory.wf s.fmem ∧ Memory.wf s.pmem

theorem resetEvent_memoryWf (hs : s.MemoryWf) (h : resetEvent s = .next t) : t.MemoryWf := by
  obtain ⟨hf, hp⟩ := hs
  rcases resetEvent_next h with ⟨-, -, hb, rfl⟩ | ⟨-, -, -, ha, rfl⟩ | ⟨-, -, rfl⟩
  · exact ⟨s.writeBlock_wf _ hf hb, hp⟩
  · exact ⟨hf, Memory.write_wf _ hp ha⟩
  · exact ⟨hf, hp⟩

theorem extractBlock_memoryWf {x : Transform} (hs : s.MemoryWf) (h : extractBlock x s = .next t) : t.MemoryWf := by
  obtain ⟨hf, hp⟩ := hs
  obtain ⟨-, ha, h⟩ := extractBlock_next h
  obtain ⟨ef, ep, -⟩ := State.checkHeader_frame h
  rw [State.MemoryWf, ef, ep]
  refine ⟨by rw [State.appendBit_frame]; exact hf, ?_⟩
  rcases s.appendBit_pmem (extractedBit x s) with e | ⟨hst, e⟩
  · exact e ▸ hp
  · exact e ▸ Memory.write_wf _ hp (ha hst)

/-- Every step keeps the canonical form of both memories (20_memory.md R70), from every state. -/
theorem step_memoryWf (hs : s.MemoryWf) (h : step s = .next t) : t.MemoryWf := by
  refine step_keeps (P := State.MemoryWf) (fun _ _ => id) (fun _ _ => id) (fun s r v hs => ?_)
    (fun _ a v hs _ => ⟨Memory.write_wf v hs.1 a.isLt, hs.2⟩) (fun _ a v hs _ => ⟨hs.1, Memory.write_wf v hs.2 a.isLt⟩)
    (fun _ _ => resetEvent_memoryWf) (fun _ _ hs _ => hs) (fun _ => id) (fun i s t hs _ h => ?_)
    (fun x s t hs _ _ h => ?_) (fun _ _ _ hs _ _ => extractBlock_memoryWf hs) hs h
  · rw [State.writeReg_live]
    exact hs
  · obtain ⟨ef, ep, -⟩ := exec_memory h
    rwa [State.MemoryWf, ef, ep]
  · obtain ⟨hb, -, rfl⟩ := embedBlock_next h
    exact ⟨s.writeBlock_wf _ hs.1 hb, hs.2⟩

end Sys2Proof.Machine

namespace Sys2Proof.Machine

/-- Settles O55: the run's part of the invariant by the cases of a step, the memories' part by what each of them writes. -/
theorem stepKeepsInvariant : Obligations.StepKeepsInvariant := by
  intro s t hs h
  obtain ⟨hstatus, hframe, hembed, hextract, hstep⟩ := step_runInv hs.runInv h
  obtain ⟨hfmem, hpmem⟩ := step_memoryWf ⟨hs.fmem, hs.pmem⟩ h
  exact ⟨hstatus, hframe, hembed, hextract, hstep, hfmem, hpmem⟩

end Sys2Proof.Machine
end

section
/-! PROOFS. What no step changes, and which events change a latch or clear OVERRUN (10_state.md R35, R55, R57, R58); the only refusals
(10_state.md R23; 60_exceptions.md R321). -/

namespace Sys2Proof.Machine

variable {s t : State}

/-! ### The build -/

theorem CommandEffect.build_eq {i : Instr} (h : CommandEffect s i t) : t.build = s.build := by
  cases h with
  | standalone h => exact h.build
  | embStart => rfl
  | extStart => rfl
  | frame => rfl
  | embEnd => rfl
  | extEnd => rfl
  | abort => rfl

theorem step_build (h : step s = .next t) : t.build = s.build := by
  cases step_effect h with
  | same h => exact h.build
  | embed u hu _ _ h => exact (embedBlock_frame h).1.trans hu.build
  | extract u hu _ _ h => exact (extractBlock_frame h).1.trans hu.build
  | reset rest _ h => exact (powerOn_sameRun_of_resetEvent h).build
  | command i rest _ _ h => exact h.build_eq

theorem State.readReg_param_congr (h : t.build = s.build) : t.readReg .param = s.readReg .param := by
  simp only [State.readReg, h]

theorem State.readReg_marker_congr (h : t.build = s.build) (k : Fin 64) : t.readReg (.marker k) = s.readReg (.marker k) := by
  simp only [State.readReg, h]

/-! ### The latches -/

theorem CommandEffect.sameLatches_or_start {i : Instr} (h : CommandEffect s i t) :
    s.SameLatches t ∨ i = .embStart ∨ i = .extStart := by
  cases h with
  | standalone h => exact .inl h.sameLatches
  | embStart => exact .inr (.inl rfl)
  | extStart => exact .inr (.inr rfl)
  | frame => exact .inl ⟨rfl, rfl, rfl, rfl, rfl, rfl⟩
  | embEnd => exact .inl ⟨rfl, rfl, rfl, rfl, rfl, rfl⟩
  | extEnd => exact .inl ⟨rfl, rfl, rfl, rfl, rfl, rfl⟩
  | abort => exact .inl ⟨rfl, rfl, rfl, rfl, rfl, rfl⟩

/-! ### OVERRUN -/

theorem CommandEffect.overrun_or_abort {i : Instr} (h : CommandEffect s i t) (ho : s.overrun = true) :
    t.overrun = true ∨ i = .abort := by
  cases h with
  | standalone h => exact .inl (h.overrun ho)
  | embStart => exact .inl ho
  | extStart => exact .inl ho
  | frame => exact .inl ho
  | embEnd => exact .inl ho
  | extEnd => exact .inl ho
  | abort => exact .inr rfl

/-! ### Refusals -/

theorem coreTurn_not_refused (x : Transform) (s : State) (r : Refusal) : coreTurn x s ≠ .refused r := by
  unfold coreTurn coreStep embedBlock extractBlock
  obtain ⟨u, hu⟩ := (s.appendBit (extractedBit x s)).advance.checkHeader_answers
  rw [hu]
  repeat' split
  all_goals exact nofun

theorem resetEvent_not_refused (s : State) (r : Refusal) : resetEvent s ≠ .refused r := by
  unfold resetEvent
  repeat' split
  all_goals exact nofun

theorem cmdWrite_not_refused (w : Word) (s : State) (r : Refusal) : cmdWrite w s ≠ .refused r := by
  cases hb : s.busy with
  | true =>
    rcases cmdWrite_cases w s with ⟨i, -, e⟩ | ⟨-, -, e⟩ <;> rw [e]
    · rw [exec_busy i hb]
      exact nofun
    · rw [illegalCommand, whenReady_busy hb]
      exact nofun
  | false =>
    rcases cmdWrite_cases w s with ⟨i, -, e⟩ | ⟨-, -, e⟩ <;> rw [e]
    · obtain ⟨t, ht, -⟩ := exec_effect i hb
      rw [ht]
      exact nofun
    · rw [illegalCommand, whenReady_idle hb]
      exact nofun

theorem registerAccess_false {off : BitVec 12} {width : Nat} : registerAccess off width = false ↔ off.toNat % 4 ≠ 0 ∨ width ≠ 32 := by
  rw [Bool.eq_false_iff, Ne, registerAccess_iff, not_and_or, or_comm]

theorem regWrite_refused_iff {off : BitVec 12} {width : Nat} {v : Word} {r : Refusal} :
    regWrite off width v s = .refused r ↔ registerAccess off width = false ∧ r = .registerAccess := by
  cases ha : registerAccess off width with
  | false => simp [regWrite, ha, eq_comm]
  | true =>
    refine iff_of_false ?_ nofun
    simp only [regWrite, ha, if_true]
    split
    · exact cmdWrite_not_refused v s r
    · split
      · exact nofun
      · exact nofun

theorem regRead_refused_iff {off : BitVec 12} {width : Nat} {r : Refusal} :
    regRead off width s = .refused r ↔ registerAccess off width = false ∧ r = .registerAccess := by
  cases ha : registerAccess off width with
  | false => simp [regRead, ha, eq_comm]
  | true => simp [regRead, ha]

/-- A step that refuses took a register access that the interface does not take. -/
theorem step_refused {r : Refusal} (h : step s = .refused r) :
    r = .registerAccess ∧ ∃ off width rest, registerAccess off width = false
      ∧ (s.inputs = .regRead off width :: rest ∨ ∃ v, s.inputs = .regWrite off width v :: rest) := by
  rw [step_eq] at h
  rcases machineStep_cases Config.transform s with e | ⟨ev, rest, hi, -, e⟩ <;> rw [e] at h
  · exact absurd h (coreTurn_not_refused _ _ r)
  · cases ev with
    | coreTurn => exact absurd h (coreTurn_not_refused _ _ r)
    | reset => exact absurd h (resetEvent_not_refused _ r)
    | regWrite off width v =>
      obtain ⟨ha, hr⟩ := regWrite_refused_iff.1 h
      exact ⟨hr, off, width, rest, ha, .inr ⟨v, hi⟩⟩
    | regRead off width =>
      obtain ⟨ha, hr⟩ := regRead_refused_iff.1 h
      exact ⟨hr, off, width, rest, ha, .inl hi⟩
    | wait => cases h
    | fmemWrite => cases h
    | fmemRead => cases h
    | pmemWrite => cases h
    | pmemRead => cases h

end Sys2Proof.Machine

namespace Sys2Proof.Machine

/-- Settles O58: no case of a step writes the build, and PARAM and the MARKER window read nothing else. -/
theorem buildIsConstant : Obligations.BuildIsConstant := fun _ _ h =>
  have hb := step_build h
  ⟨hb, State.readReg_param_congr hb, State.readReg_marker_congr hb⟩

/-- Settles O59: of the cases of a step only a Reset and the two STARTs write a latch. -/
theorem latchesWrittenByStartOnly : Obligations.LatchesWrittenByStartOnly := by
  intro s t h hne
  cases step_effect h with
  | same h => exact absurd h.sameLatches hne
  | embed u hu _ _ h =>
    obtain ⟨-, -, -, hl⟩ := embedBlock_frame h
    exact absurd (hu.sameLatches.trans hl) hne
  | extract u hu _ _ h =>
    obtain ⟨-, -, -, hl⟩ := extractBlock_frame h
    exact absurd (hu.sameLatches.trans hl) hne
  | reset rest hi _ => exact ⟨rest, .inl hi⟩
  | command i rest hi _ h =>
    rcases h.sameLatches_or_start with hl | rfl | rfl
    · exact absurd hl hne
    · exact ⟨rest, .inr (.inl hi)⟩
    · exact ⟨rest, .inr (.inr hi)⟩

/-- Settles O60: of the cases of a step only a Reset and ABORT clear OVERRUN. -/
theorem overrunSticky : Obligations.OverrunSticky := by
  intro s t ho h hf
  have hne : t.overrun ≠ true := Bool.eq_false_iff.1 hf
  cases step_effect h with
  | same h => exact absurd (h.overrun ho) hne
  | embed u hu _ _ h =>
    obtain ⟨-, -, hover, -⟩ := embedBlock_frame h
    exact absurd (hover.trans (hu.overrun ho)) hne
  | extract u hu _ _ h =>
    obtain ⟨-, -, hover, -⟩ := extractBlock_frame h
    exact absurd (hover.trans (hu.overrun ho)) hne
  | reset rest hi _ => exact ⟨rest, .inl hi⟩
  | command i rest hi _ h =>
    rcases h.overrun_or_abort ho with h | rfl
    · exact absurd h hne
    · exact ⟨rest, .inr hi⟩

/-- Settles O46: the check of the access is the only branch of a step that refuses. -/
theorem badAccessRefused : Obligations.BadAccessRefused := by
  refine ⟨fun off width v s h => ?_, fun s r h => ?_⟩
  · have ha := registerAccess_false.2 h
    exact ⟨regWrite_refused_iff.2 ⟨ha, rfl⟩, regRead_refused_iff.2 ⟨ha, rfl⟩⟩
  · obtain ⟨hr, off, width, rest, ha, hi⟩ := step_refused h
    exact ⟨hr, off, width, rest, registerAccess_false.1 ha, hi⟩

end Sys2Proof.Machine
end

section
/-! PROOFS. The register window: the word of STATUS, what a write stores and what a read answers at each offset (10_state.md R23..R57;
45_system.md R272, R273), and every register after a Reset (10_state.md R60). -/

namespace Sys2Proof.Machine

/-! ### STATUS (10_state.md R25) -/

/-- The fields of STATUS that are wider than a bit stand where R25 has them. -/
theorem State.statusWord_fields (s : State) :
    s.statusWord.extractLsb' 1 2 = s.mode.bits ∧ s.statusWord.extractLsb' 3 2 = s.run.bits
      ∧ s.statusWord.extractLsb' 8 4 = s.cmdErr.bits ∧ s.statusWord.extractLsb' 12 4 = s.runErr.bits
      ∧ s.statusWord.extractLsb' 18 14 = 0 := by
  simp (disch := decide) only [State.statusWord, BitVec.extractLsb'_append_eq_of_le, BitVec.extractLsb'_append_eq_of_add_le]
  exact ⟨BitVec.extractLsb'_eq_self, BitVec.extractLsb'_eq_self, BitVec.extractLsb'_eq_self, BitVec.extractLsb'_eq_self,
    BitVec.extractLsb'_eq_self⟩

/-- The flags of STATUS stand where R25 has them. -/
theorem State.statusWord_flags (s : State) :
    s.statusWord.getLsbD 0 = s.busy ∧ s.statusWord.getLsbD 5 = s.hdrValid ∧ s.statusWord.getLsbD 6 = s.exhausted
      ∧ s.statusWord.getLsbD 7 = s.partialEmb ∧ s.statusWord.getLsbD 16 = s.iterValid ∧ s.statusWord.getLsbD 17 = s.overrun := by
  simp only [State.statusWord, BitVec.getLsbD_append, flagBit]
  simp

theorem Mode.bits_code (m : Mode) : (m, m.bits) ∈ ([(.none, 0), (.embed, 1), (.extract, 2)] : List (Mode × BitVec 2)) := by
  cases m <;> decide

theorem Run.bits_code (r : Run) :
    (r, r.bits) ∈ ([(.idle, 0), (.active, 1), (.done, 2), (.failed, 3)] : List (Run × BitVec 2)) := by
  cases r <;> decide

theorem Code.bits_code (c : Code) :
    (c, c.bits) ∈ ([(.ok, 0), (.markerMismatch, 1), (.incompleteHeader, 2), (.truncatedPayload, 3), (.streamTruncated, 4),
      (.illegalCommand, 5), (.sequence, 6), (.badConfig, 7), (.indexRange, 8)] : List (Code × BitVec 4)) := by
  cases c <;> decide

/-! ### What is at an offset (10_state.md R23) -/

/-- From 0x068 on there are only the two windows of bytes. -/
theorem regAt_of_ge {n : Nat} (h : 0x068 ≤ n) :
    regAt n =
      if 0x100 ≤ n ∧ n < 0x200 ∧ n % 4 = 0 then some (.hdr (Fin.ofNat 64 ((n - 0x100) / 4)))
      else if 0x200 ≤ n ∧ n < 0x300 ∧ n % 4 = 0 then some (.marker (Fin.ofNat 64 ((n - 0x200) / 4)))
      else none := by
  unfold regAt
  split
  case h_26 => rfl
  all_goals omega

theorem regAt_undefined {n : Nat} (h : n = 0 ∨ (0x068 ≤ n ∧ n < 0x100) ∨ 0x300 ≤ n) : regAt n = none := by
  rcases Nat.eq_zero_or_pos n with rfl | hpos
  · rfl
  · rw [regAt_of_ge (by omega), if_neg (by omega), if_neg (by omega)]

theorem regAt_hdr {k : Nat} (h : k < 64) : regAt (0x100 + 4 * k) = some (.hdr ⟨k, h⟩) := by
  rw [regAt_of_ge (by omega), if_pos (by omega), Nat.add_sub_cancel_left, Nat.mul_div_cancel_left k (by decide)]
  exact congrArg (some ∘ Reg.hdr) (Fin.ext (Nat.mod_eq_of_lt h))

theorem regAt_marker {k : Nat} (h : k < 64) : regAt (0x200 + 4 * k) = some (.marker ⟨k, h⟩) := by
  rw [regAt_of_ge (by omega), if_neg (by omega), if_pos (by omega), Nat.add_sub_cancel_left, Nat.mul_div_cancel_left k (by decide)]
  exact congrArg (some ∘ Reg.marker) (Fin.ext (Nat.mod_eq_of_lt h))

/-! ### Reads (45_system.md R273) -/

/-- A word-aligned read answers the register at its offset. -/
theorem regRead_aligned (s : State) {off : BitVec 12} (h : off.toNat % 4 = 0) :
    regRead off 32 s = .next { s with rdData := s.readOffset off.toNat } :=
  if_pos (registerAccess_iff.2 ⟨rfl, h⟩)

theorem State.readOffset_undefined (s : State) {n : Nat} (h : regAt n = none) : s.readOffset n = 0 := by
  rw [State.readOffset, h]

theorem State.readOffset_reg (s : State) {n : Nat} {r : Reg} (h : regAt n = some r) : s.readOffset n = s.readReg r := by
  rw [State.readOffset, h]

/-- A read in a window of bytes. -/
theorem regRead_window (s : State) {base k : Nat} {r : Reg} (hb : base ≤ 0x200) (h4 : base % 4 = 0) (hk : k < 64)
    (hr : regAt (base + 4 * k) = some r) :
    regRead (BitVec.ofNat 12 (base + 4 * k)) 32 s = .next { s with rdData := s.readReg r } := by
  have hoff : (BitVec.ofNat 12 (base + 4 * k)).toNat = base + 4 * k := by
    rw [BitVec.toNat_ofNat]
    omega
  rw [regRead_aligned s (by omega), hoff, s.readOffset_reg hr]

theorem flagBit_zeroExtend (b : Bool) : (flagBit b).zeroExtend 32 = if b then (1 : Word) else 0 := by
  cases b <;> rfl

theorem Build.markerByte_of_ge (b : Build) {k : Nat} (h : b.ml ≤ k) : Build.markerByte b k = 0 := if_neg h.not_gt

theorem Build.markerByte_of_lt (b : Build) {k : Nat} (h : k < b.ml) : Build.markerByte b k = (b.marker[k]?).getD 0 := if_pos h

/-- The MARKER window reads 0 past the marker, since there MARKER[k] is 0 (10_state.md R57). -/
theorem State.readReg_marker (s : State) (k : Fin 64) :
    s.readReg (.marker k) = if k.val < s.build.ml then (Build.markerByte s.build k.val).zeroExtend 32 else 0 := by
  split
  · rfl
  · next h =>
    rw [State.readReg, Build.markerByte_of_ge _ (not_lt.1 h)]
    rfl

theorem RoundTie.bits_of_code {t : RoundTie} {v : BitVec 2}
    (h : (t, v) ∈ ([(.halfEven, 0), (.halfAway, 1), (.halfUp, 2)] : List (RoundTie × BitVec 2))) : RoundTie.bits t = v := by
  simp only [List.mem_cons, Prod.mk.injEq, List.not_mem_nil, or_false] at h
  rcases h with ⟨rfl, rfl⟩ | ⟨rfl, rfl⟩ | ⟨rfl, rfl⟩ <;> rfl

/-! ### Writes (45_system.md R272) -/

/-- The fields of COEF_POS are the bits 2:0 and 10:8 of the word (10_state.md R38). -/
theorem coefPos_mask (v : Word) :
    (0 : BitVec 21) ++ v.extractLsb' 8 3 ++ (0 : BitVec 5) ++ v.extractLsb' 0 3 = (v &&& 0x00000707) := by
  have hmask : ∀ k < 32, (0x00000707 : Word).getLsbD k = decide (k < 3 ∨ 8 ≤ k ∧ k < 11) := by decide
  refine BitVec.eq_of_getLsbD_eq fun k hk => ?_
  rw [BitVec.getLsbD_and, hmask k hk]
  simp only [BitVec.getLsbD_append, BitVec.getLsbD_extractLsb']
  rcases Nat.lt_or_ge k 3 with h3 | h3
  · simp [h3]
  · rcases Nat.lt_or_ge k 8 with h8 | h8
    · simp [h3.not_gt, show k - 3 < 5 by omega, h8.not_ge]
    · rcases Nat.lt_or_ge k 11 with h11 | h11
      · simp [h3.not_gt, show ¬k - 3 < 5 by omega, show k - 3 - 5 < 3 by omega, show 8 + (k - 3 - 5) = k by omega, h8, h11]
      · simp [h3.not_gt, show ¬k - 3 < 5 by omega, show ¬k - 3 - 5 < 3 by omega, h11.not_gt]

/-- The field of FRAME_W and of FRAME_H is the lower half of the word (10_state.md R39, R40). -/
theorem frameSize_mask (v : Word) : (v.extractLsb' 0 16).zeroExtend 32 = (v &&& 0x0000FFFF) := by
  have hmask : ∀ k < 32, (0x0000FFFF : Word).getLsbD k = decide (k < 16) := by decide
  refine BitVec.eq_of_getLsbD_eq fun k hk => ?_
  rw [BitVec.getLsbD_and, hmask k hk]
  simp [hk, Bool.and_comm]

/-- A write at any other aligned offset but CMD is ignored: there is no register there, or one that a write leaves alone. -/
theorem regWrite_ignored {off : BitVec 12} (h4 : off.toNat % 4 = 0)
    (h : off ∉ ([0x000, 0x008, 0x00C, 0x010, 0x014, 0x018, 0x01C, 0x020, 0x028, 0x02C] : List (BitVec 12))) (v : Word) (s : State) :
    regWrite off 32 v s = .next s := by
  have hmem : off.toNat ∉ [0x000, 0x008, 0x00C, 0x010, 0x014, 0x018, 0x01C, 0x020, 0x028, 0x02C] := fun hn =>
    h (List.mem_map_of_injective (f := BitVec.toNat) (fun _ _ => BitVec.eq_of_toNat_eq) |>.1 hn)
  obtain ⟨hcmd, hreg⟩ : off.toNat ≠ cmdOffset ∧ off.toNat ∉ _ := not_or.1 (mt List.mem_cons.2 hmem)
  rw [regWrite, if_pos (registerAccess_iff.2 ⟨rfl, h4⟩), if_neg hcmd]
  split
  · next r hr =>
    rw [((regAt_writable hr).resolve_left hreg) s v]
  · rfl

/-! ### Steps (log 1) -/

theorem step_regWrite {s : State} {off : BitVec 12} {width : Nat} {v : Word} {rest : List Event}
    (h : s.inputs = .regWrite off width v :: rest) : step s = regWrite off width v (s.setInputs rest) :=
  machineStep_event _ h rfl

theorem step_regRead {s : State} {off : BitVec 12} {width : Nat} {rest : List Event} (h : s.inputs = .regRead off width :: rest) :
    step s = regRead off width (s.setInputs rest) :=
  machineStep_event _ h rfl

theorem step_reset {s : State} {rest : List Event} (h : s.inputs = .reset :: rest) : step s = resetEvent (s.setInputs rest) :=
  machineStep_event _ h rfl

/-! ### Reset -/

theorem sameMemory_of_eq {s t : State} (hf : t.fmem = s.fmem) (hp : t.pmem = s.pmem) : sameMemory s t :=
  fun a => ⟨State.fmemByte_congr hf a, State.pmemByte_congr hp a⟩

/-- A Reset of an idle block draws no byte (70_reset_and_hazards.md R343). -/
theorem resetEvent_idle {s : State} (hb : s.busy = false) : resetEvent s = .next s.resetRegs := by
  simp [resetEvent, hb]

/-- The words of the registers with fields, at power-on (10_state.md R60). -/
theorem powerOn_words (b : Build) :
    (State.powerOn b).statusWord = 0 ∧ (State.powerOn b).coefPosWord = 0x00000102 ∧ (State.powerOn b).iterPosWord = 0 := by
  simp only [State.statusWord, State.coefPosWord, State.iterPosWord, State.powerOn]
  decide

theorem powerOn_hdrByte (b : Build) (k : Nat) : (State.powerOn b).hdrByte k = 0 := by
  simp only [State.hdrByte, State.powerOn, Vector.getElem?_replicate]
  split <;> rfl

/-- A Reset leaves every register as power-on does, whatever it draws (10_state.md R60). -/
theorem resetEvent_registers {s t : State} (h : resetEvent s = .next t) :
    t = { State.powerOn s.build with
      fmem := t.fmem, pmem := t.pmem, inputs := t.inputs, rdData := t.rdData, draws := t.draws } := by
  rcases resetEvent_next h with ⟨-, -, -, rfl⟩ | ⟨-, -, -, -, rfl⟩ | ⟨-, -, rfl⟩
  · rfl
  · rfl
  · rfl

end Sys2Proof.Machine

namespace Sys2Proof.Machine

/-- Settles O43, by the fields and the flags of the word. -/
theorem statusLayout : Obligations.StatusLayout := by
  rintro s outcomes rfl
  obtain ⟨hmode, hrun, hcmd, herr, hzero⟩ := s.statusWord_fields
  obtain ⟨hbusy, hhdr, hexh, hpart, hiter, hover⟩ := s.statusWord_flags
  rw [hmode, hrun, hcmd, herr]
  exact ⟨rfl, hbusy, s.mode.bits_code, s.run.bits_code, hhdr, hexh, hpart, s.cmdErr.bits_code, s.runErr.bits_code, hiter, hover, hzero⟩

/-- Settles O44: each register's write stores the bits of its fields, and the rest is ignored. -/
theorem registerWrites : Obligations.RegisterWrites := by
  refine ⟨fun s v => ⟨rfl, ⟨_, rfl, rfl, coefPos_mask v⟩, ⟨_, rfl, rfl, frameSize_mask v⟩, ⟨_, rfl, rfl, frameSize_mask v⟩, rfl, rfl,
    rfl, ⟨_, rfl, rfl, ?_, ?_⟩, ⟨_, rfl, rfl, ?_, ?_⟩⟩, fun off v s h4 h => regWrite_ignored h4 h v s, fun _ _ => rfl,
    fun _ _ _ _ _ h => step_regWrite h⟩
  · exact BitVec.extractLsb'_append_eq_right
  · exact BitVec.extractLsb'_append_eq_left
  · exact BitVec.extractLsb'_append_eq_left
  · exact BitVec.extractLsb'_append_eq_right

/-- Settles O45: a read answers what `readReg` has for the register at its offset. -/
theorem readsHaveNoSideEffect : Obligations.ReadsHaveNoSideEffect := by
  refine ⟨fun off s h4 => ⟨⟨_, regRead_aligned s h4, rfl, sameMemory_of_eq rfl rfl⟩, fun h => ?_⟩, fun s => ?_,
    fun s tie h => ?_, fun s k hk => ⟨⟨rfl, ?_⟩, Build.markerByte_of_lt _, ?_⟩, fun _ _ _ _ h => step_regRead h⟩
  · rw [regRead_aligned s h4, s.readOffset_undefined (regAt_undefined (h.imp (congrArg BitVec.toNat) id))]
  · rw [← flagBit_zeroExtend]
    and_intros <;> rfl
  · rw [← RoundTie.bits_of_code h]
    rfl
  · exact regRead_window s (by decide) rfl hk (regAt_hdr hk)
  · rw [regRead_window s le_rfl rfl hk (regAt_marker hk), s.readReg_marker]

/-- Settles O51: a Reset leaves the registers of power-on. -/
theorem resetValues : Obligations.ResetValues := by
  refine ⟨fun s t h => ?_, fun s hb => ⟨_, resetEvent_idle hb, sameMemory_of_eq rfl rfl⟩, fun _ _ h => step_reset h⟩
  rw [resetEvent_registers h]
  obtain ⟨hstatus, hcoefPos, hiterPos⟩ := powerOn_words s.build
  exact ⟨hstatus, rfl, hcoefPos, rfl, rfl, rfl, rfl, rfl, rfl, rfl, rfl, rfl, rfl, rfl, rfl, rfl, rfl, rfl, hiterPos, powerOn_hdrByte s.build,
    rfl, rfl, rfl, rfl, rfl, rfl, rfl, rfl, fun _ => rfl⟩

end Sys2Proof.Machine
end

section
/-! PROOFS. A turn of the Core reads the latches and never a live register (10_state.md R58; 70_reset_and_hazards.md R351): each operation
of a block step commutes with a change of the live registers. -/

namespace Sys2Proof.Machine

theorem State.appendBit_withLive (s : State) (l : LiveRegs) (b : Bool) :
    (s.withLive l).appendBit b = (s.appendBit b).withLive l := by
  rcases Nat.lt_or_ge s.bitsDone.toNat (headerBits s.build) with h | h
  · rw [State.appendBit_header b h]
    exact State.appendBit_header (s := s.withLive l) b h
  · rcases eq_or_ne ((s.bitsDone.toNat - headerBits s.build) % 8) 7 with h7 | h7
    · rw [State.appendBit_store b h h7]
      exact State.appendBit_store (s := s.withLive l) b h h7
    · rw [State.appendBit_shift b h h7]
      exact State.appendBit_shift (s := s.withLive l) b h h7

theorem State.completeOrWait_withLive (s : State) (l : LiveRegs) : (s.withLive l).completeOrWait = s.completeOrWait.withLive l := by
  rcases s.completeOrWait_cases with ⟨hv, hd, e⟩ | ⟨hn, e⟩ <;> rw [e]
  · exact if_pos ⟨hv, hd⟩
  · exact if_neg hn

theorem State.checkHeader_withLive (s : State) (l : LiveRegs) :
    (s.withLive l).checkHeader = mapNext (fun t => t.withLive l) s.checkHeader := by
  unfold State.checkHeader
  rw [apply_ite (mapNext _)]
  refine if_congr Iff.rfl ?_ (congrArg Host.Outcome.next (s.completeOrWait_withLive l))
  dsimp only
  rw [apply_ite (mapNext _)]
  exact if_congr Iff.rfl rfl (congrArg Host.Outcome.next (s.acceptHeader.completeOrWait_withLive l))

theorem embedBlock_withLive (x : Transform) (s : State) (l : LiveRegs) :
    embedBlock x (s.withLive l) = mapNext (fun t => t.withLive l) (embedBlock x s) := by
  unfold embedBlock
  rw [apply_ite (mapNext _), apply_ite (mapNext _)]
  exact if_congr Iff.rfl (if_congr Iff.rfl rfl rfl) rfl

theorem extractBlock_withLive (x : Transform) (s : State) (l : LiveRegs) :
    extractBlock x (s.withLive l) = mapNext (fun t => t.withLive l) (extractBlock x s) := by
  unfold extractBlock
  rw [apply_ite (mapNext _), apply_ite (mapNext _), State.appendBit_withLive]
  exact if_congr Iff.rfl (if_congr Iff.rfl rfl ((s.appendBit (extractedBit x s)).advance.checkHeader_withLive l)) rfl

theorem coreStep_withLive (x : Transform) (s : State) (l : LiveRegs) :
    coreStep x (s.withLive l) = mapNext (fun t => t.withLive l) (coreStep x s) := by
  unfold coreStep
  rw [show (s.withLive l).mode = s.mode from rfl]
  cases s.mode with
  | none => rfl
  | embed => exact embedBlock_withLive x s l
  | extract => exact extractBlock_withLive x s l

end Sys2Proof.Machine

namespace Sys2Proof.Machine

/-- Settles O50: BUSY, MODE and each block step are the same on other live registers. -/
theorem blockStepsReadLatchesOnly : Obligations.BlockStepsReadLatchesOnly := by
  intro x s l
  unfold coreTurn
  rw [apply_ite (mapNext _)]
  exact if_congr Iff.rfl (coreStep_withLive x s l) rfl

end Sys2Proof.Machine
end

section
/-! PROOFS. PARSE in its four outcomes (40_framing.md R137, R138; 60_exceptions.md R306): which of them ParseFn answers turns on whether
the marker's bytes are all there. -/

namespace Sys2Proof.Machine

/-- A sequence whose bits are the marker's has the marker's bytes (40_framing.md R136). -/
theorem bytes_eq_marker_of_bits {b : Build} {bytes : Nat → Byte}
    (h : ∀ m, m < 8 * b.ml → seqBit bytes m = seqBit (Build.markerByte b) m) {k : Nat} (hk : k < b.ml) :
    bytes k = Build.markerByte b k := by
  refine byte_eq_of_bits fun i hi => ?_
  have hdiv : (8 * k + i) / 8 = k := by omega
  have hmod : (8 * k + i) % 8 = i := by omega
  simpa only [seqBit, hdiv, hmod] using h (8 * k + i) (by omega)

theorem markerMatchBits_markerByte (b : Build) : markerMatchBits b (Build.markerByte b) = 8 * b.ml := by
  have hnone : (List.range (8 * b.ml)).find? (fun m => seqBit (Build.markerByte b) m != seqBit (Build.markerByte b) m) = none :=
    List.find?_eq_none.2 fun m _ => by simp
  rw [markerMatchBits, hnone, Option.getD_none]

/-- All of the marker's bits match exactly when all of its bytes do (40_framing.md R136). -/
theorem markerMatchBits_eq_iff {b : Build} {bytes : Nat → Byte} :
    markerMatchBits b bytes = 8 * b.ml ↔ ∀ k, k < b.ml → bytes k = Build.markerByte b k := by
  constructor
  · intro h
    unfold markerMatchBits at h
    cases hf : (List.range (8 * b.ml)).find? fun m => seqBit bytes m != seqBit (Build.markerByte b) m with
    | none =>
      refine fun k => bytes_eq_marker_of_bits fun m hm => ?_
      simpa using List.find?_eq_none.1 hf m (List.mem_range.2 hm)
    | some m =>
      rw [hf, Option.getD_some] at h
      exact absurd h (List.mem_range.1 (List.mem_of_find?_eq_some hf)).ne
  · intro h
    rw [markerMatchBits_congr b h, markerMatchBits_markerByte]

theorem markerMatchBits_lt_iff {b : Build} {bytes : Nat → Byte} :
    markerMatchBits b bytes < 8 * b.ml ↔ ∃ k, k < b.ml ∧ bytes k ≠ Build.markerByte b k := by
  rw [(markerMatchBits_le b bytes).lt_iff_ne, Ne, markerMatchBits_eq_iff]
  simp only [not_forall, exists_prop, ne_eq]

/-- PARSE issued while BUSY = 0 does what ParseFn's answer says (40_framing.md R138). -/
theorem exec_parse_idle {s : State} (hb : s.busy = false) :
    exec .parse s = s.applyParse (parseFn s.build s.pmemByte s.parseLen.toNat) :=
  whenReady_idle hb fun s => s.applyParse (parseFn s.build s.pmemByte s.parseLen.toNat)

/-- Settles O23: each outcome of PARSE is that of one answer of ParseFn. -/
theorem parseEffect : Obligations.ParseEffect := by
  intro s hb
  rw [exec_parse_idle hb]
  refine ⟨fun hshort => ?_, fun hlen hmark => ?_, fun hlen hmark htrunc => ?_, fun hlen hmark hfits => ?_, fun _ => rfl⟩
  · rw [parseFn_short _ hshort]
    rfl
  · rw [parseFn_mismatch hlen (markerMatchBits_lt_iff.2 hmark)]
    rfl
  · rw [parseFn_truncated hlen (markerMatchBits_eq_iff.2 hmark) htrunc]
    rfl
  · rw [parseFn_payload hlen (markerMatchBits_eq_iff.2 hmark) hfits]
    rfl

end Sys2Proof.Machine
end

section
/-! PROOFS. The Host's accesses to the two memories: which of them have no move, and what a read answers after a write (20_memory.md R79,
R83, R85; 60_exceptions.md R321). -/

namespace Sys2Proof.Machine

variable {s : State}

/-- A step whose next event has no move exactly when `p` holds: the Core's turn if `p`, else that event (log 8). -/
theorem machineStep_ite (x : Transform) {e : Event} {rest : List Event} {p : Prop} [Decidable p] (h : s.inputs = e :: rest)
    (hp : s.hasMove e = false ↔ p) : machineStep x s = if p then coreTurn x s else eventStep x e (s.setInputs rest) := by
  split
  · next hno => exact machineStep_no_move x h (hp.2 hno)
  · next hmove => exact machineStep_event x h (Bool.eq_true_of_not_eq_false (mt hp.1 hmove))

/-! ### The step of each access that the contract admits -/

section

variable (x : Transform) {a : Word} {v : Byte} {rest : List Event}

theorem machineStep_fmemWrite (h : s.inputs = .fmemWrite a v :: rest) (hm : s.hostMayUseFmem a = true) :
    machineStep x s = .next ((s.setInputs rest).setFmem a.toNat v) :=
  machineStep_event x h hm

theorem machineStep_fmemRead (h : s.inputs = .fmemRead a :: rest) (hm : s.hostMayUseFmem a = true) :
    machineStep x s = .next ((s.setInputs rest).setRdData ((s.fmemByte a.toNat).zeroExtend 32)) :=
  machineStep_event x h hm

theorem machineStep_pmemWrite (h : s.inputs = .pmemWrite a v :: rest) (hm : s.hostMayWritePmem a = true) :
    machineStep x s = .next ((s.setInputs rest).setPmem a.toNat v) :=
  machineStep_event x h hm

theorem machineStep_pmemRead (h : s.inputs = .pmemRead a :: rest) (hm : s.hostMayReadPmem = true) :
    machineStep x s = .next ((s.setInputs rest).setRdData ((s.pmemByte a.toNat).zeroExtend 32)) :=
  machineStep_event x h hm

end

/-! ### What the contract admits while BUSY = 0 -/

theorem State.hostMayUseFmem_idle (hb : s.busy = false) (a : Word) : s.hostMayUseFmem a = true := by
  simp [State.hostMayUseFmem, hb]

theorem State.hostMayReadPmem_idle (hb : s.busy = false) : s.hostMayReadPmem = true := by
  simp [State.hostMayReadPmem, hb]

/-- Between frames the payload of an active embed run is all that the Host may not write (20_memory.md R85). -/
theorem State.hostMayWritePmem_idle (hb : s.busy = false) {a : Word}
    (ha : s.mode = .embed → s.run = .active → s.llen.toNat ≤ a.toNat) : s.hostMayWritePmem a = true := by
  refine Bool.eq_true_of_not_eq_false fun hno => ?_
  rcases State.hostMayWritePmem_false.1 hno with ⟨hbusy, -⟩ | ⟨hm, hbusy | hr, hlt⟩
  · exact nomatch hb.symm.trans hbusy
  · exact nomatch hb.symm.trans hbusy
  · exact (ha hm hr).not_gt hlt

/-! ### Reads at an address after a write at an address -/

theorem State.fmemByte_setFmem (s : State) (a b : Word) (v : Byte) :
    (s.setFmem a.toNat v).fmemByte b.toNat = if b = a then v else s.fmemByte b.toNat := by
  split
  · next hab => rw [hab, State.fmemByte_setFmem_same]
  · next hab => exact State.fmemByte_setFmem_other s v (mt BitVec.eq_of_toNat_eq hab)

theorem State.pmemByte_setPmem (s : State) (a b : Word) (v : Byte) :
    (s.setPmem a.toNat v).pmemByte b.toNat = if b = a then v else s.pmemByte b.toNat := by
  split
  · next hab => rw [hab, State.pmemByte_setPmem_same]
  · next hab => exact State.pmemByte_setPmem_other s v (mt BitVec.eq_of_toNat_eq hab)

end Sys2Proof.Machine

namespace Sys2Proof.Machine

/-- Settles O48: with BUSY = 0 both accesses have a move, before and after the write. -/
theorem memoryReadAfterWrite : Obligations.MemoryReadAfterWrite := by
  refine fun x s a b v rest hb => ⟨fun h => ?_, fun h ha => ?_⟩
  · exact ⟨_, _, machineStep_fmemWrite x h (State.hostMayUseFmem_idle hb a),
      machineStep_fmemRead x rfl (State.hostMayUseFmem_idle hb b), rfl,
      congrArg (BitVec.zeroExtend 32) (State.fmemByte_setFmem (s.setInputs _) a b v)⟩
  · exact ⟨_, _, machineStep_pmemWrite x h (State.hostMayWritePmem_idle hb ha),
      machineStep_pmemRead x rfl (State.hostMayReadPmem_idle hb), rfl,
      congrArg (BitVec.zeroExtend 32) (State.pmemByte_setPmem (s.setInputs _) a b v)⟩

/-- Settles O47: each access is without a move exactly as the contract has it, and its event is a single write or read. -/
theorem hostContract : Obligations.HostContract := fun x _ _ _ _ =>
  ⟨fun h => machineStep_ite x h State.hostMayUseFmem_false, fun h => machineStep_ite x h State.hostMayUseFmem_false,
    fun h => machineStep_ite x h State.hostMayWritePmem_false, fun h => machineStep_ite x h State.hostMayReadPmem_false⟩

end Sys2Proof.Machine
end

section
/-! PROOFS. From a state that meets the invariant no step faults (20_memory.md R71, R72, R81; 45_system.md R275; log 12, log 13): a busy
frame is at a block inside FMEM, a run's cursor is inside a stream whose payload fits PMEM, and a busy Core has a run. Also, every step
keeps the memories in canonical form (log 6). -/

namespace Sys2Proof.Machine

variable {s : State}

/-! ### The addresses of a busy frame -/

theorem State.RunInv.blockInFmem (hs : s.RunInv) (hb : s.busy = true) : s.blockInFmem = true := by
  obtain ⟨-, -, -, hr, hc⟩ := hs.frame hb
  exact State.blockInFmem_of_inside hr hc

/-- The payload byte of a bit inside a stream of at most 2^32 payload bytes has a PMEM address (20_memory.md R72). -/
theorem payloadAddr_lt_of_lt {b : Build} {j n : Nat} (hj : j < headerBits b + 8 * n) (hn : n ≤ 2 ^ 32) : payloadAddr b j < 2 ^ 32 := by
  rw [payloadAddr]
  omega

/-- A busy embed frame is short of the end of its stream (43_embed.md R213). -/
theorem State.RunInv.embed_payloadAddr (hs : s.RunInv) (hb : s.busy = true) (hm : s.mode = .embed) :
    payloadAddr s.build s.bitsDone.toNat < 2 ^ 32 := by
  obtain ⟨hreq, hle, hex, hbusy⟩ := hs.embed hm
  have hne : s.bitsDone.toNat ≠ s.bitsReq.toNat := fun e =>
    nomatch (hbusy hb).symm.trans (hex.2 (BitVec.eq_of_toNat_eq e))
  refine payloadAddr_lt_of_lt (n := s.llen.toNat) ?_ s.llen.isLt.le
  rw [streamBits] at hreq
  rw [headerBits_eq]
  omega

/-- A busy extract frame is short of the header, or of the stream that the header declares (44_extract.md R244, R246). -/
theorem State.RunInv.extract_payloadAddr (hs : s.RunInv) (hb : s.busy = true) (hm : s.mode = .extract) :
    payloadAddr s.build s.bitsDone.toNat < 2 ^ 32 := by
  have hr := hs.status.busyActive hb
  obtain ⟨hheader, hvalid⟩ := hs.extract hm
  cases hv : s.hdrValid with
  | false =>
    obtain ⟨-, -, hact, -⟩ := hheader hv
    exact payloadAddr_lt_of_lt (n := 0) (hact hr) (Nat.zero_le _)
  | true =>
    obtain ⟨-, hreq, -, -, hact, -⟩ := hvalid hv
    exact payloadAddr_lt_of_lt (hreq ▸ hact hr) (lengthField_lt _ _).le

/-! ### What answers a next state -/

/-- A turn of the Core: an idle Core changes nothing, and a busy one has a run and a block step (45_system.md R275). -/
theorem coreTurn_answers (x : Transform) (hs : s.RunInv) : ∃ t, coreTurn x s = .next t := by
  unfold coreTurn
  split
  · next hb =>
    unfold coreStep
    split
    · next hm => exact embedBlock_answers x (hs.blockInFmem hb) (hs.embed_payloadAddr hb hm)
    · next hm => exact extractBlock_answers x (hs.blockInFmem hb) (hs.extract_payloadAddr hb hm)
    · next hm => exact nomatch (hs.status.noneIdle.1 hm).symm.trans (hs.status.busyActive hb)
  · exact ⟨s, rfl⟩

theorem resetEvent_answers (hs : s.RunInv) : ∃ t, resetEvent s = .next t := by
  unfold resetEvent
  split
  · next hrun =>
    rw [if_pos (hs.blockInFmem hrun.1)]
    exact ⟨_, rfl⟩
  · split
    · next hrun =>
      rw [if_pos (hs.extract_payloadAddr hrun.1 hrun.2.1)]
      exact ⟨_, rfl⟩
    · exact ⟨_, rfl⟩

theorem whenReady_answers {body : State → Host.Outcome State Fault Refusal} (h : s.busy = false → ∃ t, body s = .next t) :
    ∃ t, whenReady s body = .next t := by
  cases hb : s.busy with
  | true => exact ⟨_, whenReady_busy hb body⟩
  | false =>
    rw [whenReady_idle hb]
    exact h hb

/-- A write of any word to CMD, from any state (60_exceptions.md R300). -/
theorem cmdWrite_answers (w : Word) (s : State) : ∃ t, cmdWrite w s = .next t := by
  rcases cmdWrite_cases w s with ⟨i, -, e⟩ | ⟨-, -, e⟩ <;> rw [e]
  · obtain ⟨body, hbody⟩ := exec_ready i
    rw [hbody]
    refine whenReady_answers fun hb => ?_
    obtain ⟨t, ht, -⟩ := exec_effect i hb
    exact ⟨t, by rw [← ht, hbody, whenReady_idle hb]⟩
  · exact whenReady_answers fun _ => ⟨_, rfl⟩

/-! ### Register accesses never fault -/

theorem regWrite_not_fault (off : BitVec 12) (width : Nat) (v : Word) (s : State) (r : Fault) : regWrite off width v s ≠ .fault r := by
  obtain ⟨t, ht⟩ := cmdWrite_answers v s
  unfold regWrite
  rw [ht]
  repeat' split
  all_goals exact nofun

theorem regRead_not_fault (off : BitVec 12) (width : Nat) (s : State) (r : Fault) : regRead off width s ≠ .fault r := by
  unfold regRead
  split
  · exact nofun
  · exact nofun

end Sys2Proof.Machine

namespace Sys2Proof.Machine

/-- Settles O56: a turn of the Core and a Reset answer a next state, and no access of the Host has a fault. -/
theorem invariantExcludesFaults : Obligations.InvariantExcludesFaults := by
  intro s r hs h
  rw [step_eq] at h
  rcases machineStep_cases Config.transform s with e | ⟨ev, rest, -, -, e⟩ <;> rw [e] at h
  · obtain ⟨t, ht⟩ := coreTurn_answers Config.transform hs.runInv
    exact nomatch ht.symm.trans h
  · have hrun := hs.runInv.of_sameRun (s.setInputs_sameRun rest)
    cases ev with
    | coreTurn =>
      obtain ⟨t, ht⟩ := coreTurn_answers Config.transform hrun
      exact nomatch ht.symm.trans h
    | reset =>
      obtain ⟨t, ht⟩ := resetEvent_answers hrun
      exact nomatch ht.symm.trans h
    | regWrite off width v => exact regWrite_not_fault off width v _ r h
    | regRead off width => exact regRead_not_fault off width _ r h
    | wait => cases h
    | fmemWrite => cases h
    | fmemRead => cases h
    | pmemWrite => cases h
    | pmemRead => cases h

/-- Settles O57: `step_memoryWf`, which goes through all that a step can write, is the claim for the two memories together. -/
theorem stepKeepsMemoryForm : Obligations.StepKeepsMemoryForm := fun _ _ hf hp h =>
  step_memoryWf ⟨hf, hp⟩ h

end Sys2Proof.Machine
end

section
/-! PROOFS. The encoding of the commands (30_encoding.md R100..R107): a word decodes to a command exactly when it is that command's word,
and which words are illegal. Also what a write to CMD and a turn of the Core are (R106, R121; 45_system.md R272, R275). -/

namespace Sys2Proof

/-! ### The four answers of `decode` (30_encoding.md R101, R105). -/

theorem decode_reservedBits {w : Word} (hr : rsvdField w ≠ 0) : decode w = .illegal .reservedBits := if_pos hr

theorem decode_unknownOp {w : Word} (hr : rsvdField w = 0) (hop : instrOfOp (opField w) (bField w) = none) :
    decode w = .illegal .unknownOp := by
  rw [decode, if_neg (not_not.2 hr), hop]

theorem decode_strayB {w : Word} {i : Instr} (hr : rsvdField w = 0) (hop : instrOfOp (opField w) (bField w) = some i)
    (hb : bField w = true ∧ opField w ≠ 0x01) : decode w = .illegal .strayB := by
  rw [decode, if_neg (not_not.2 hr), hop]
  exact if_pos hb

theorem decode_legal {w : Word} {i : Instr} (hr : rsvdField w = 0) (hop : instrOfOp (opField w) (bField w) = some i)
    (hb : ¬(bField w = true ∧ opField w ≠ 0x01)) : decode w = .instr i := by
  rw [decode, if_neg (not_not.2 hr), hop]
  exact if_neg hb

/-! ### The words of the commands (30_encoding.md R104) -/

/-- The fields of every command's word, from the family Encoding. -/
theorem encode_fields (i : Instr) : Laws.Encoding.Statement i := by
  cases i with
  | nop => exact Laws.Encoding.nop
  | qenc b => exact Laws.Encoding.qenc b
  | qdec => exact Laws.Encoding.qdec
  | iterReset => exact Laws.Encoding.iterReset
  | iterNext => exact Laws.Encoding.iterNext
  | serBit => exact Laws.Encoding.serBit
  | parse => exact Laws.Encoding.parse
  | embStart => exact Laws.Encoding.embStart
  | embFrame => exact Laws.Encoding.embFrame
  | embEnd => exact Laws.Encoding.embEnd
  | extStart => exact Laws.Encoding.extStart
  | extFrame => exact Laws.Encoding.extFrame
  | extEnd => exact Laws.Encoding.extEnd
  | abort => exact Laws.Encoding.abort

theorem decode_encode (i : Instr) : decode (encode i) = .instr i := by
  obtain ⟨-, hrsvd, hb, hop⟩ := encode_fields i
  refine decode_legal hrsvd hop fun ⟨h, hne⟩ => ?_
  obtain rfl := hb h
  exact hne rfl

theorem decode_eq_instr_iff {w : Word} {i : Instr} : decode w = .instr i ↔ w = encode i :=
  ⟨eq_encode_of_decode, fun h => h ▸ decode_encode i⟩

/-- Every command, QENC with each value of its bit. -/
def Instr.all : List Instr :=
  [.nop, .qenc false, .qenc true, .qdec, .iterReset, .iterNext, .serBit, .parse, .embStart, .embFrame, .embEnd, .extStart, .extFrame,
    .extEnd, .abort]

theorem Instr.mem_all (i : Instr) : i ∈ Instr.all := by
  cases i with
  | qenc b => cases b <;> decide
  | _ => decide

/-- The pairs of a command's word and the command are the opcode map as a table. -/
theorem mem_map_encode_iff {w : Word} {i : Instr} : (w, i) ∈ Instr.all.map (fun j => (encode j, j)) ↔ w = encode i := by
  rw [List.mem_map]
  constructor
  · rintro ⟨j, -, h⟩
    obtain ⟨rfl, rfl⟩ := Prod.mk.inj h
    rfl
  · rintro rfl
    exact ⟨i, i.mem_all, rfl⟩

/-! ### Illegal words (30_encoding.md R105) -/

/-- The three reasons that make a word illegal, in its fields. -/
theorem decode_illegal_iff {w : Word} :
    (∃ why, decode w = .illegal why) ↔
      rsvdField w ≠ 0 ∨ instrOfOp (opField w) (bField w) = none ∨ (bField w = true ∧ opField w ≠ 0x01) := by
  by_cases hr : rsvdField w = 0
  · cases hop : instrOfOp (opField w) (bField w) with
    | none => exact iff_of_true ⟨_, decode_unknownOp hr hop⟩ (.inr (.inl rfl))
    | some i =>
      by_cases hb : bField w = true ∧ opField w ≠ 0x01
      · exact iff_of_true ⟨_, decode_strayB hr hop hb⟩ (.inr (.inr hb))
      · simp [decode_legal hr hop hb, hr, hb]
  · exact iff_of_true ⟨_, decode_reservedBits hr⟩ (.inl hr)

/-- The OPs of the map (30_encoding.md R104). -/
def mapOps : List Byte :=
  [0x00, 0x01, 0x02, 0x08, 0x09, 0x10, 0x11, 0x20, 0x21, 0x22, 0x30, 0x31, 0x32, 0x3F]

theorem instrOfOp_eq_none_iff {op : Nat} {b : Bool} : instrOfOp op b = none ↔ op ∉ mapOps.map BitVec.toNat := by
  unfold instrOfOp
  split <;> simp_all [mapOps]

theorem rsvdField_eq_zero_iff {w : Word} : rsvdField w = 0 ↔ w.extractLsb' 9 23 = 0 :=
  BitVec.toNat_inj (y := 0)

theorem opField_eq_toNat_iff {w : Word} {o : Byte} : opField w = o.toNat ↔ w.extractLsb' 0 8 = o :=
  BitVec.toNat_inj

theorem opField_mem_map_toNat_iff {w : Word} {os : List Byte} : opField w ∈ os.map BitVec.toNat ↔ w.extractLsb' 0 8 ∈ os :=
  List.mem_map_of_injective fun _ _ => BitVec.eq_of_toNat_eq

end Sys2Proof

namespace Sys2Proof.Machine

/-! ### Writes to CMD (30_encoding.md R105, R106) -/

theorem cmdWrite_of_instr {w : Word} {i : Instr} (h : decode w = .instr i) (s : State) : cmdWrite w s = exec i s := by
  simp only [cmdWrite, h]

theorem cmdWrite_of_illegal {w : Word} {why : Illegal} (h : decode w = .illegal why) (s : State) : cmdWrite w s = illegalCommand s := by
  simp only [cmdWrite, h]

theorem illegalCommand_idle {s : State} (hb : s.busy = false) : illegalCommand s = .next (s.setCmdErr .illegalCommand) :=
  whenReady_idle hb _

theorem regWrite_cmd (w : Word) (s : State) : regWrite 0x000 32 w s = cmdWrite w s := rfl

/-! ### Turns of the Core (45_system.md R275; 60_exceptions.md R327) -/

theorem coreTurn_idle (x : Transform) {s : State} (hb : s.busy = false) : coreTurn x s = .next s := by
  simp [coreTurn, hb]

theorem coreTurn_embed (x : Transform) {s : State} (hb : s.busy = true) (hm : s.mode = .embed) : coreTurn x s = embedBlock x s := by
  simp [coreTurn, coreStep, hb, hm]

theorem coreTurn_extract (x : Transform) {s : State} (hb : s.busy = true) (hm : s.mode = .extract) :
    coreTurn x s = extractBlock x s := by
  simp [coreTurn, coreStep, hb, hm]

theorem State.hasMove_wait {s : State} {b : Bool} (hb : s.busy = b) : s.hasMove .wait = !b := congrArg not hb

end Sys2Proof.Machine

namespace Sys2Proof.Machine

/-- Settles O2: the map gives each command's word back that command, and a legal word has the fields of its command's word. -/
theorem decodeEncodeAgree : Obligations.DecodeEncodeAgree := by
  refine ⟨fun i _ => decode_encode i, fun w i h => ?_⟩
  obtain ⟨hwf, -⟩ := encode_fields i
  exact ⟨hwf, (eq_encode_of_decode h).symm⟩

/-- Settles O1: the fifteen pairs are the commands' words, each with its command. -/
theorem opcodeMapIsExact : Obligations.OpcodeMapIsExact := fun _ _ =>
  decode_eq_instr_iff.trans mem_map_encode_iff.symm

/-- Settles O3: the three conditions are those of `decode_illegal_iff` on the bits of the fields. -/
theorem illegalWords : Obligations.IllegalWords := by
  refine ⟨fun w => ?_, fun w why s h hb => ?_⟩
  · rw [decode_illegal_iff, instrOfOp_eq_none_iff]
    exact or_congr (not_congr rsvdField_eq_zero_iff)
      (or_congr (not_congr opField_mem_map_toNat_iff) (and_congr_right fun _ => not_congr (opField_eq_toNat_iff (o := 0x01))))
  · rw [cmdWrite_of_illegal h, illegalCommand_idle hb, State.setCmdErr]

/-- Settles O4: two of the words are the words of their commands, and the third has a reserved bit. -/
theorem sampleWordsDecode : Obligations.SampleWordsDecode :=
  ⟨decode_encode (.qenc true), decode_encode .extFrame, decode_reservedBits (by decide)⟩

/-- Settles O5: the event leaves the list, and the register at its offset is CMD. -/
theorem stepRunsTheCommand : Obligations.StepRunsTheCommand := by
  intro s w i rest h hd _
  rw [step_regWrite h, regWrite_cmd, cmdWrite_of_instr hd, State.setInputs]

/-- Settles O49: BUSY and MODE choose the Core's turn, and a wait has a move exactly while BUSY = 0. -/
theorem coreEnablement : Obligations.CoreEnablement := fun x _ _ =>
  ⟨coreTurn_idle x, coreTurn_embed x, coreTurn_extract x, machineStep_nil x, fun h => machineStep_event x h rfl,
    fun h hb => machineStep_no_move x h (State.hasMove_wait hb), fun h hb => machineStep_event x h (State.hasMove_wait hb)⟩

end Sys2Proof.Machine
end

section
/-! PROOFS. The stream, the marker comparison and ParseFn on what was serialized (40_framing.md R131, R132, R136, R140): each zone of the
stream's bytes has its own equation, and MarkerMatchBits is either the first differing bit or all of the marker. -/

namespace Sys2Proof.Machine

variable {b : Build} {p bytes : Nat → Byte} {len k i : Nat}

/-! ### The three zones of the stream (40_framing.md R131) -/

theorem streamByte_marker (hk : k < b.ml) : streamByte b p len k = Build.markerByte b k := if_pos hk

theorem streamByte_length (hlo : b.ml ≤ k) (hhi : k < b.ml + 4) :
    streamByte b p len k = BitVec.ofNat 8 (len >>> (8 * (b.ml + 3 - k))) :=
  (if_neg hlo.not_gt).trans (if_pos hhi)

theorem streamByte_payload (hk : b.ml + 4 ≤ k) : streamByte b p len k = p (k - b.ml - 4) :=
  (if_neg (by omega)).trans (if_neg hk.not_gt)

theorem streamByte_length_toNat (hlo : b.ml ≤ k) (hhi : k < b.ml + 4) :
    (streamByte b p len k).toNat = len / 2 ^ (8 * (b.ml + 3 - k)) % 256 := by
  rw [streamByte_length hlo hhi, BitVec.toNat_ofNat, Nat.shiftRight_eq_div_pow]

/-- The header's bytes do not depend on the payload. -/
theorem streamByte_header_congr (p' : Nat → Byte) (hk : k < b.ml + 4) : streamByte b p' len k = streamByte b p len k := by
  rcases Nat.lt_or_ge k b.ml with hm | hm
  · rw [streamByte_marker hm, streamByte_marker hm]
  · rw [streamByte_length hm hk, streamByte_length hm hk]

/-- A bit past the header reads one byte of the payload (40_framing.md R132). -/
theorem streamBit_payload (hi : 8 * (b.ml + 4) ≤ i) :
    streamBit b p len i = (p ((i - 8 * (b.ml + 4)) / 8)).getLsbD (7 - i % 8) := by
  have haddr : i / 8 - b.ml - 4 = (i - 8 * (b.ml + 4)) / 8 := by omega
  rw [streamBit, seqBit, streamByte_payload (by omega), haddr]

/-- Settles O20: each zone by its equation, and a bit by the zone of its byte. -/
theorem streamBytesAndBits : Obligations.StreamBytesAndBits := fun b _ _ _ =>
  ⟨fun _ hk => (streamByte_marker hk).trans (Build.markerByte_of_lt b hk), fun _ => streamByte_length_toNat,
    fun _ => streamByte_payload, fun _ => rfl,
    fun _ hi p' => seqBit_congr (fun _ hk => streamByte_header_congr p' hk) hi, fun _ => streamBit_payload⟩

/-! ### The marker comparison (40_framing.md R136) -/

/-- Below MarkerMatchBits all bits are the marker's, and the bit there, if any of the marker is left, is not. -/
theorem markerMatchBits_first (b : Build) (bytes : Nat → Byte) :
    (∀ m, m < markerMatchBits b bytes → seqBit bytes m = seqBit (Build.markerByte b) m)
      ∧ (markerMatchBits b bytes < 8 * b.ml →
          seqBit bytes (markerMatchBits b bytes) ≠ seqBit (Build.markerByte b) (markerMatchBits b bytes)) := by
  unfold markerMatchBits
  cases hf : (List.range (8 * b.ml)).find? fun m => seqBit bytes m != seqBit (Build.markerByte b) m with
  | none =>
    have hall := List.find?_range_eq_none.1 hf
    exact ⟨fun m hm => by simpa using hall m hm, fun h => absurd h (lt_irrefl _)⟩
  | some n =>
    obtain ⟨hdiff, -, hbelow⟩ := List.find?_range_eq_some.1 hf
    exact ⟨fun m hm => by simpa using hbelow m hm, fun _ => bne_iff_ne.1 hdiff⟩

/-- Settles O22: the bits at and below the first difference, and the marker's bytes when there is none. -/
theorem markerMatchFirstDifference : Obligations.MarkerMatchFirstDifference := fun b bytes =>
  have ⟨hbelow, hdiff⟩ := markerMatchBits_first b bytes
  ⟨markerMatchBits_le b bytes, hbelow, hdiff, markerMatchBits_eq_iff⟩

/-! ### Serialize, then parse (40_framing.md R140) -/

/-- The length field of a stream is the length it was made with. -/
theorem lengthField_streamByte (hlen : len < 2 ^ 32) : lengthField b (streamByte b p len) = len := by
  have hbyte : ∀ j, j < 4 → (streamByte b p len (b.ml + j)).toNat = len / 2 ^ (8 * (3 - j)) % 256 := fun j hj => by
    rw [streamByte_length_toNat (by omega) (by omega), show b.ml + 3 - (b.ml + j) = 3 - j by omega]
  have h0 : (streamByte b p len b.ml).toNat = len / 2 ^ 24 % 256 := hbyte 0 (by decide)
  have h1 : (streamByte b p len (b.ml + 1)).toNat = len / 2 ^ 16 % 256 := hbyte 1 (by decide)
  have h2 : (streamByte b p len (b.ml + 2)).toNat = len / 2 ^ 8 % 256 := hbyte 2 (by decide)
  have h3 : (streamByte b p len (b.ml + 3)).toNat = len / 1 % 256 := hbyte 3 (by decide)
  rw [lengthField, be32, h0, h1, h2, h3]
  omega

/-- Settles O24: the marker is all there, the length field is the payload's length, and the bytes past the header are the payload's. -/
theorem framingRoundTrip : Obligations.FramingRoundTrip := by
  intro b p bytes len P hlen hstream hP
  have hmark : markerMatchBits b bytes = 8 * b.ml :=
    markerMatchBits_eq_iff.2 fun k hk => (hstream k (by omega)).trans (streamByte_marker hk)
  have hfield : lengthField b bytes = len :=
    (lengthField_congr b fun k hk => hstream k (by omega)).trans (lengthField_streamByte hlen)
  refine ⟨?_, fun i hi => ?_⟩
  · rw [parseFn_payload (by omega) hmark (by omega), hfield]
  · rw [hstream _ (by omega), streamByte_payload (by omega), show b.ml + 4 + i - b.ml - 4 = i by omega]

end Sys2Proof.Machine
end

section
/-! PROOFS. All that ITER_RESET, ITER_NEXT, SER_BIT and PARSE can answer, and so what they leave unchanged (40_framing.md R135, R138;
42_iterator.md R195, R196; 45_system.md R274). -/

namespace Sys2Proof.Machine

variable {s t : State}

theorem exec_sameMemory {i : Instr} (h : exec i s = .next t) : sameMemory s t := by
  obtain ⟨hfmem, hpmem, -⟩ := exec_memory h
  exact sameMemory_of_eq hfmem hpmem

/-- The standalone iterator during an active run is a SEQUENCE error, else the command's own body answers (60_exceptions.md R308). -/
theorem whenNoActiveRun_next {body : State → Host.Outcome State Fault Refusal} (h : whenNoActiveRun s body = .next t) :
    (s.run = .active ∧ t = s.setCmdErr .sequence) ∨ (s.run ≠ .active ∧ body s = .next t) := by
  unfold whenNoActiveRun at h
  split at h
  · next hr => exact .inl ⟨hr, (Host.Outcome.next.inj h).symm⟩
  · next hr => exact .inr ⟨hr, h⟩

/-- ITER_RESET is dropped, or writes its code alone, or the position and its code. -/
theorem exec_iterReset_next (h : exec .iterReset s = .next t) :
    t = s.setOverrun ∨ (∃ c, t = s.setCmdErr c) ∨ ∃ p, t = (s.setIter p).setCmdErr .ok := by
  rw [exec_iterReset, execIterReset] at h
  obtain ⟨-, rfl⟩ | ⟨-, h⟩ := whenReady_next h
  · exact .inl rfl
  obtain ⟨-, rfl⟩ | ⟨-, h⟩ := whenNoActiveRun_next h
  · exact .inr (.inl ⟨_, rfl⟩)
  · exact .inr (.inr ⟨_, (Host.Outcome.next.inj h).symm⟩)

/-- ITER_NEXT answers in the same ways: with ITER_VALID = 0 it writes its code alone. -/
theorem exec_iterNext_next (h : exec .iterNext s = .next t) :
    t = s.setOverrun ∨ (∃ c, t = s.setCmdErr c) ∨ ∃ p, t = (s.setIter p).setCmdErr .ok := by
  rw [exec_iterNext, execIterNext] at h
  obtain ⟨-, rfl⟩ | ⟨-, h⟩ := whenReady_next h
  · exact .inl rfl
  obtain ⟨-, rfl⟩ | ⟨-, h⟩ := whenNoActiveRun_next h
  · exact .inr (.inl ⟨_, rfl⟩)
  split at h
  · exact .inr (.inr ⟨_, (Host.Outcome.next.inj h).symm⟩)
  · exact .inr (.inl ⟨_, (Host.Outcome.next.inj h).symm⟩)

/-- SER_BIT is dropped, or reports the counts, or writes the bit. -/
theorem exec_serBit_next (h : exec .serBit s = .next t) :
    t = s.setOverrun ∨ (∃ e o, t = (s.reportCounts e o).setCmdErr .indexRange)
      ∨ ∃ v, t = { s with bitOut := v, cmdErr := .ok } := by
  rw [exec_serBit, execSerBit] at h
  obtain ⟨-, rfl⟩ | ⟨-, h⟩ := whenReady_next h
  · exact .inl rfl
  dsimp only at h
  split at h
  · exact .inr (.inl ⟨_, _, (Host.Outcome.next.inj h).symm⟩)
  · exact .inr (.inr ⟨_, (Host.Outcome.next.inj h).symm⟩)

/-- PARSE is dropped, or reports the counts of its failure, or writes where the payload stands. -/
theorem exec_parse_next (h : exec .parse s = .next t) :
    t = s.setOverrun ∨ (∃ c e o, t = (s.reportCounts e o).setCmdErr c)
      ∨ ∃ off len, t = { s with resOff := off, resLen := len, cmdErr := .ok } := by
  rw [exec_parse, execParse] at h
  obtain ⟨-, rfl⟩ | ⟨-, h⟩ := whenReady_next h
  · exact .inl rfl
  cases hr : parseFn s.build s.pmemByte s.parseLen.toNat with
  | incompleteHeader e o => exact .inr (.inl ⟨_, e, o, (Host.Outcome.next.inj (hr ▸ h)).symm⟩)
  | markerMismatch e o => exact .inr (.inl ⟨_, e, o, (Host.Outcome.next.inj (hr ▸ h)).symm⟩)
  | truncatedPayload e o => exact .inr (.inl ⟨_, e, o, (Host.Outcome.next.inj (hr ▸ h)).symm⟩)
  | payload off len => exact .inr (.inr ⟨_, _, (Host.Outcome.next.inj (hr ▸ h)).symm⟩)

/-- Settles O41: every answer of these commands is written with the named fields alone, and no command writes a memory. -/
theorem iteratorAndFramingFrame : Obligations.IteratorAndFramingFrame := by
  intro s t
  refine ⟨fun i hi h => ⟨?iter, exec_sameMemory h⟩, fun h => ⟨?serBit, exec_sameMemory h⟩, fun h => ⟨?parse, exec_sameMemory h⟩⟩
  case iter =>
    have hcases := hi.elim (fun e => exec_iterReset_next (e ▸ h)) fun e => exec_iterNext_next (e ▸ h)
    obtain rfl | ⟨c, rfl⟩ | ⟨p, rfl⟩ := hcases <;> rfl
  case serBit => obtain rfl | ⟨e, o, rfl⟩ | ⟨v, rfl⟩ := exec_serBit_next h <;> rfl
  case parse => obtain rfl | ⟨c, e, o, rfl⟩ | ⟨off, len, rfl⟩ := exec_parse_next h <;> rfl

end Sys2Proof.Machine
end

section
/-! PROOFS. Round: what it leaves of its argument, its ties, and its order (41_qim.md R161), and so ToSample (R172). -/

namespace Sys2Proof.Machine

variable {n d : Int}

/-! ### What Round leaves (41_qim.md R161) -/

/-- Round leaves the remainder, or the remainder less the divisor. -/
theorem sub_roundDiv_mul_cases (tie : RoundTie) (n d : Int) :
    (n - roundDiv tie n d * d = n % d ∧ 2 * (n % d) ≤ d) ∨ (n - roundDiv tie n d * d = n % d - d ∧ d ≤ 2 * (n % d)) := by
  have hdiv := Int.ediv_mul_add_emod n d
  obtain ⟨h, hr⟩ | ⟨h, hr⟩ := roundDiv_cases tie n d
  · exact .inl ⟨by rw [h]; omega, hr⟩
  · exact .inr ⟨by rw [h, add_mul, one_mul]; omega, hr⟩

/-- The distance that Round covers does not depend on the tie rule. -/
theorem abs_sub_roundDiv_mul (tie : RoundTie) (n : Int) (hd : 0 < d) : |n - roundDiv tie n d * d| = min (n % d) (d - n % d) := by
  have hlo := Int.emod_nonneg n hd.ne'
  have hhi := Int.emod_lt_of_pos n hd
  obtain ⟨h, hr⟩ | ⟨h, hr⟩ := sub_roundDiv_mul_cases tie n d
  · rw [h, abs_of_nonneg hlo]
    omega
  · rw [h, abs_of_neg (by omega)]
    omega

theorem roundDiv_near (tie : RoundTie) (n : Int) (hd : 0 < d) : 2 * |n - roundDiv tie n d * d| ≤ d := by
  rw [abs_sub_roundDiv_mul tie n hd]
  omega

/-- Away from the half points, all tie rules round alike. -/
theorem roundDiv_congr_tie (t u : RoundTie) (h : 2 * (n % d) ≠ d) : roundDiv t n d = roundDiv u n d := by
  obtain h | h := lt_or_gt_of_ne h
  · rw [roundDiv_of_lt t h, roundDiv_of_lt u h]
  · rw [roundDiv_of_gt t h, roundDiv_of_gt u h]

theorem lt_roundDiv_mul_of_tieUp {tie : RoundTie} (hd : 0 < d) (h : 2 * (n % d) = d) (hup : tieUp tie (n / d) = true) :
    n < roundDiv tie n d * d := by
  have hdiv := Int.ediv_mul_add_emod n d
  rw [roundDiv_of_eq tie h, if_pos hup, add_mul, one_mul]
  omega

theorem roundDiv_mul_lt_of_not_tieUp {tie : RoundTie} (hd : 0 < d) (h : 2 * (n % d) = d) (hup : tieUp tie (n / d) ≠ true) :
    roundDiv tie n d * d < n := by
  have hdiv := Int.ediv_mul_add_emod n d
  rw [roundDiv_of_eq tie h, if_neg hup]
  omega

theorem roundDiv_halfEven_even (h : 2 * (n % d) = d) : roundDiv .halfEven n d % 2 = 0 := by
  rw [roundDiv_of_eq _ h]
  split
  · next hodd =>
    have : n / d % 2 ≠ 0 := bne_iff_ne.1 hodd
    omega
  · next heven => simpa [tieUp] using heven

theorem abs_lt_abs_roundDiv_halfAway_mul (hd : 0 < d) (h : 2 * (n % d) = d) : |n| < |roundDiv .halfAway n d * d| := by
  have hsign : tieUp .halfAway (n / d) = true ↔ 0 ≤ n := decide_eq_true_iff.trans (Int.ediv_nonneg_iff_of_pos hd)
  obtain hn | hn := le_or_gt 0 n
  · have hlt := lt_roundDiv_mul_of_tieUp hd h (hsign.2 hn)
    rwa [abs_of_nonneg hn, abs_of_nonneg (hn.trans hlt.le)]
  · have hlt := roundDiv_mul_lt_of_not_tieUp hd h (mt hsign.1 hn.not_ge)
    rw [abs_of_neg hn, abs_of_neg (hlt.trans hn)]
    exact neg_lt_neg hlt

/-- Settles O10: Round covers at most half a divisor, and each tie rule names its neighbour. -/
theorem roundIsNearest : Obligations.RoundIsNearest := by
  refine fun tie n d hd => ⟨roundDiv_near tie n hd, fun h => ⟨?even, ?away, ?up⟩⟩
  case even =>
    rintro rfl
    exact roundDiv_halfEven_even h
  case away =>
    rintro rfl
    exact abs_lt_abs_roundDiv_halfAway_mul hd h
  case up =>
    rintro rfl
    exact lt_roundDiv_mul_of_tieUp hd h rfl

/-! ### Round is monotone, and so commutes with a clamp between multiples (41_qim.md R172) -/

/-- A greater argument has the greater floor, or the same floor and the greater remainder. -/
theorem roundDiv_monotone (tie : RoundTie) (hd : 0 < d) : Monotone fun n => roundDiv tie n d := by
  refine monotone_iff_forall_lt.2 fun n m hnm => ?_
  have hn := roundDiv_cases tie n d
  have hm := roundDiv_cases tie m d
  obtain hfloor | hfloor := (Int.ediv_le_ediv hd hnm.le).lt_or_eq
  · omega
  · have hrem : n % d < m % d := by
      rw [← Int.ediv_mul_add_emod n d, ← Int.ediv_mul_add_emod m d, hfloor] at hnm
      exact lt_of_add_lt_add_left hnm
    omega

/-- Between two multiples of the divisor, Round and the clamp can change places. -/
theorem roundDiv_clampInt (tie : RoundTie) (v lo hi : Int) (hd : 0 < d) :
    roundDiv tie (clampInt v (lo * d) (hi * d)) d = clampInt (roundDiv tie v d) lo hi := by
  have hmono := roundDiv_monotone tie hd
  calc roundDiv tie (clampInt v (lo * d) (hi * d)) d
      = min (max (roundDiv tie v d) (roundDiv tie (lo * d) d)) (roundDiv tie (hi * d) d) := by
        rw [← hmono.map_max, ← hmono.map_min]
        rfl
    _ = clampInt (roundDiv tie v d) lo hi := by rw [roundDiv_mul tie lo hd, roundDiv_mul tie hi hd, clampInt]

theorem clampInt_mem {lo hi : Int} (h : lo ≤ hi) (v : Int) : lo ≤ clampInt v lo hi ∧ clampInt v lo hi ≤ hi :=
  ⟨le_min (le_max_right _ _) h, min_le_right _ _⟩

/-- A sample fits its byte. -/
theorem toSample_toNat (b : Build) (v : Word) : ((toSample b v).toNat : Int) = toSampleInt b v.toInt := by
  obtain ⟨hlo, hhi⟩ : 0 ≤ toSampleInt b v.toInt ∧ toSampleInt b v.toInt ≤ 255 := clampInt_mem (by decide) _
  rw [toSample, BitVec.toNat_ofInt]
  omega

/-- Settles O15: the word holds the clamped value, 0 and 255 are multiples of 1 in raw form, and Round by 1 is exact. -/
theorem sampleRoundClampCommute : Obligations.SampleRoundClampCommute := by
  intro b v
  have hone : (b.one : Int) = 2 ^ b.frac.val := Nat.cast_pow 2 _
  have hpos : (0 : Int) < 2 ^ b.frac.val := by positivity
  refine ⟨?byte, ?commute, fun h0 => ?exact⟩
  case byte => rw [toSample_toNat, toSampleInt, hone]
  case commute =>
    have h := roundDiv_clampInt b.roundTie v.toInt 0 255 hpos
    rw [zero_mul] at h
    exact h.symm
  case exact => simpa [h0] using roundDiv_mul b.roundTie v.toInt one_pos

end Sys2Proof.Machine
end

section
/-! PROOFS. The bit codec: Encode stays on its lattice (41_qim.md R160, R165, R166), Decode goes by the residue (R167 to R169), and what
the two make of each other (R170, R171). -/

namespace Sys2Proof.Machine

variable {b : Bool} {c q x e : Int}

/-! ### Lattices (41_qim.md R160, R165) -/

/-- Where lattice `b` stands between two multiples of the step (41_qim.md R160). -/
def latticeOffset (b : Bool) (q : Int) : Int := if b then q / 2 else 0

@[simp] theorem latticeOffset_false (q : Int) : latticeOffset false q = 0 := rfl

@[simp] theorem latticeOffset_true (q : Int) : latticeOffset true q = q / 2 := rfl

/-- `x` is a point of lattice `b` (41_qim.md R160). -/
def OnLattice (b : Bool) (q x : Int) : Prop := ∃ k : Int, x = k * q + latticeOffset b q

theorem OnLattice.add_step (h : OnLattice b q x) : OnLattice b q (x + q) := by
  obtain ⟨k, rfl⟩ := h
  exact ⟨k + 1, by ring⟩

theorem OnLattice.sub_step (h : OnLattice b q x) : OnLattice b q (x - q) := by
  obtain ⟨k, rfl⟩ := h
  exact ⟨k - 1, by ring⟩

/-- Both bits round alike, about their lattice's own origin. -/
theorem encodeU_eq (tie : RoundTie) (c : Int) (b : Bool) (q : Int) :
    encodeU tie c b q = roundDiv tie (c - latticeOffset b q) q * q + latticeOffset b q := by
  cases b with
  | false => simp [encodeU, lattice0]
  | true => simp [encodeU, lattice1]

theorem encodeU_onLattice (tie : RoundTie) (c : Int) (b : Bool) (q : Int) : OnLattice b q (encodeU tie c b q) :=
  ⟨_, encodeU_eq tie c b q⟩

theorem encodeU_near (tie : RoundTie) (c : Int) (b : Bool) (hq : 0 < q) : 2 * |encodeU tie c b q - c| ≤ q := by
  have h := roundDiv_near tie (c - latticeOffset b q) hq
  rwa [sub_right_comm, sub_sub, ← encodeU_eq, abs_sub_comm] at h

/-- A point of the lattice is its own nearest point. -/
theorem encodeU_of_onLattice (tie : RoundTie) (hq : 0 < q) (h : OnLattice b q x) : encodeU tie x b q = x := by
  obtain ⟨k, rfl⟩ := h
  rw [encodeU_eq, add_sub_cancel_right, roundDiv_mul tie k hq]

/-! ### The step inward (41_qim.md R166) -/

theorem qimEncode_of_mem {tie : RoundTie} (hlo : coefMin ≤ encodeU tie c b q) (hhi : encodeU tie c b q ≤ coefMax) :
    qimEncode tie c b q = encodeU tie c b q := by
  simp only [qimEncode, if_neg hhi.not_gt, if_neg hlo.not_gt]

/-- Encode is EncodeU, or one step inward from it; a legal step is too small to cross the range. -/
theorem qimEncode_cases (tie : RoundTie) (c : Int) (b : Bool) (hmax : q ≤ 2 ^ 30) :
    (coefMin ≤ encodeU tie c b q ∧ encodeU tie c b q ≤ coefMax ∧ qimEncode tie c b q = encodeU tie c b q)
      ∨ (coefMax < encodeU tie c b q ∧ qimEncode tie c b q = encodeU tie c b q - q)
      ∨ (encodeU tie c b q < coefMin ∧ qimEncode tie c b q = encodeU tie c b q + q) := by
  have hwidth : coefMax = coefMin + 2 ^ 32 - 1 := rfl
  obtain habove | hle := lt_or_ge coefMax (encodeU tie c b q)
  · have hback : ¬encodeU tie c b q - q < coefMin := by omega
    exact .inr (.inl ⟨habove, by simp only [qimEncode, if_pos habove, if_neg hback]⟩)
  obtain hbelow | hge := lt_or_ge (encodeU tie c b q) coefMin
  · exact .inr (.inr ⟨hbelow, by simp only [qimEncode, if_neg hle.not_gt, if_pos hbelow]⟩)
  · exact .inl ⟨hge, hle, qimEncode_of_mem hge hle⟩

theorem qimEncode_onLattice (tie : RoundTie) (c : Int) (b : Bool) (hmax : q ≤ 2 ^ 30) : OnLattice b q (qimEncode tie c b q) := by
  have hU := encodeU_onLattice tie c b q
  obtain ⟨-, -, h⟩ | ⟨-, h⟩ | ⟨-, h⟩ := qimEncode_cases tie c b hmax
  · exact h ▸ hU
  · exact h ▸ hU.sub_step
  · exact h ▸ hU.add_step

/-- From a coefficient in range, EncodeU is at most half a step outside it, and one step leads back. -/
theorem qimEncode_mem (tie : RoundTie) (b : Bool) (hq : 0 < q) (hmax : q ≤ 2 ^ 30) (hlo : coefMin ≤ c) (hhi : c ≤ coefMax) :
    coefMin ≤ qimEncode tie c b q ∧ qimEncode tie c b q ≤ coefMax := by
  have hnear := encodeU_near tie c b hq
  have hdist := abs_le.1 (show |encodeU tie c b q - c| ≤ q / 2 by omega)
  have hwidth : coefMax = coefMin + 2 ^ 32 - 1 := rfl
  have hcases := qimEncode_cases tie c b hmax
  omega

/-! ### Coefficient words and legal steps (41_qim.md R162) -/

theorem legalStep_int {q : Word} (h : legalStep q = true) :
    (q.toNat : Int) % 2 = 0 ∧ 0 < (q.toNat : Int) ∧ (q.toNat : Int) ≤ 2 ^ 30 := by
  rw [legalStep_iff] at h
  omega

section Words

variable (tie : RoundTie) (c : Word) (b : Bool) {q : Word} (hq : legalStep q = true)
include hq

theorem qimEncode_word_mem : coefMin ≤ qimEncode tie c.toInt b q.toNat ∧ qimEncode tie c.toInt b q.toNat ≤ coefMax := by
  obtain ⟨-, hpos, hmax⟩ := legalStep_int hq
  exact qimEncode_mem tie b hpos hmax c.le_toInt (Int.le_sub_one_of_lt c.toInt_lt)

/-- Encode fits a coefficient word. -/
theorem encodeWord_toInt : (encodeWord tie c b q).toInt = qimEncode tie c.toInt b q.toNat := by
  obtain ⟨hlo, hhi⟩ := qimEncode_word_mem tie c b hq
  exact BitVec.toInt_ofInt_eq_self (by decide) hlo (Int.lt_of_le_sub_one hhi)

/-- Encode of what Encode made (41_qim.md R171(d)). -/
theorem qimEncode_qimEncode : qimEncode tie (qimEncode tie c.toInt b q.toNat) b q.toNat = qimEncode tie c.toInt b q.toNat := by
  obtain ⟨-, hpos, hmax⟩ := legalStep_int hq
  obtain ⟨hlo, hhi⟩ := qimEncode_word_mem tie c b hq
  have hU := encodeU_of_onLattice tie hpos (qimEncode_onLattice tie c.toInt b hmax)
  exact (qimEncode_of_mem (hU.symm ▸ hlo) (hU.symm ▸ hhi)).trans hU

end Words

/-- Settles O11: EncodeU is on its lattice and near, and Encode is EncodeU, or one step from it, in the coefficient's range. -/
theorem encodeOnLatticeInRange : Obligations.EncodeOnLatticeInRange := by
  intro tie c b q hq
  obtain ⟨-, hpos, hmax⟩ := legalStep_int hq
  have hnear := encodeU_near tie c.toInt b hpos
  have hcases := qimEncode_cases tie c.toInt b hmax
  refine ⟨encodeU_onLattice _ _ _ _, by omega, qimEncode_word_mem tie c b hq, qimEncode_onLattice tie _ b hmax, ?above, ?below,
    ?inside, encodeWord_toInt tie c b hq⟩
  all_goals
    simp only [coefMin, coefMax] at hcases
    omega

/-! ### Decode by the residue (41_qim.md R167 to R169) -/

theorem abs_sub_lattice0 (tie : RoundTie) (c : Int) (hq : 0 < q) : |c - lattice0 tie c q| = min (c % q) (q - c % q) :=
  abs_sub_roundDiv_mul tie c hq

/-- The residue of a number less than one step from 0. -/
theorem emod_eq_ite (hlo : -q ≤ e) (hhi : e < q) : e % q = if 0 ≤ e then e else e + q := by
  split
  · exact Int.emod_eq_of_lt ‹_› hhi
  · rw [← Int.add_emod_right]
    exact Int.emod_eq_of_lt (by omega) (by omega)

/-- The residue of a coefficient about lattice 1's own origin. -/
theorem emod_sub_half (c : Int) (hq : 0 < q) :
    (c - q / 2) % q = if 0 ≤ c % q - q / 2 then c % q - q / 2 else c % q - q / 2 + q := by
  have hlo := Int.emod_nonneg c hq.ne'
  have hhi := Int.emod_lt_of_pos c hq
  rw [← Int.emod_sub_emod, emod_eq_ite (by omega) (by omega)]

theorem abs_sub_lattice1 (tie : RoundTie) (c : Int) (hq : 0 < q) (heven : q % 2 = 0) :
    |c - lattice1 tie c q| = |c % q - q / 2| := by
  have hlo := Int.emod_nonneg c hq.ne'
  have hhi := Int.emod_lt_of_pos c hq
  rw [lattice1, ← sub_sub, sub_right_comm, abs_sub_roundDiv_mul tie _ hq, emod_sub_half c hq]
  split
  · rw [abs_of_nonneg (by omega)]
    omega
  · rw [abs_of_neg (by omega)]
    omega

/-- Decode is 1 when lattice 1 is strictly nearer (41_qim.md R168). -/
theorem qimDecode_iff_dist (tie : RoundTie) (c q : Int) :
    qimDecode tie c q = true ↔ |c - lattice1 tie c q| < |c - lattice0 tie c q| := by
  rw [qimDecode, ← Int.natCast_natAbs, ← Int.natCast_natAbs, Int.ofNat_lt]
  simp

theorem qimDecode_iff (tie : RoundTie) (c : Int) (hq : 0 < q) (heven : q % 2 = 0) :
    qimDecode tie c q = true ↔ q < 4 * (c % q) ∧ 4 * (c % q) < 3 * q := by
  rw [qimDecode_iff_dist, abs_sub_lattice0 tie c hq, abs_sub_lattice1 tie c hq heven, Int.abs_eq_natAbs]
  omega

/-- Settles O12: the two distances depend on the residue alone, and Decode compares them. -/
theorem decodeByResidue : Obligations.DecodeByResidue := by
  intro tie c q hq
  obtain ⟨heven, hpos, -⟩ := legalStep_int hq
  have h0 := abs_sub_lattice0 tie c hpos
  have h1 := abs_sub_lattice1 tie c hpos heven
  refine ⟨qimDecode_iff tie c hpos heven, h0, h1, ?_⟩
  rw [h0, h1, Int.abs_eq_natAbs]
  omega

/-! ### What the tie rule reaches (41_qim.md R170) -/

/-- Encode looks at the tie rule through EncodeU only. -/
theorem qimEncode_congr {t u : RoundTie} (h : encodeU t c b q = encodeU u c b q) : qimEncode t c b q = qimEncode u c b q := by
  rw [qimEncode, h, qimEncode]

/-- Encode is the same under all tie rules away from the half points about its lattice's origin. -/
theorem qimEncode_congr_tie (t u : RoundTie) (h : 2 * ((c - latticeOffset b q) % q) ≠ q) :
    qimEncode t c b q = qimEncode u c b q :=
  qimEncode_congr (by rw [encodeU_eq, encodeU_eq, roundDiv_congr_tie t u h])

/-- Settles O13: the residue decides Decode, the half points are the residues q/2 and 0, and at each there are two results. -/
theorem tieRuleReach : Obligations.TieRuleReach := by
  refine ⟨fun t u c q hq => ?_, ⟨2, 4, by decide⟩, ⟨0, 4, by decide⟩⟩
  obtain ⟨heven, hpos, -⟩ := legalStep_int hq
  have hlo := Int.emod_nonneg c hpos.ne'
  have hhi := Int.emod_lt_of_pos c hpos
  refine ⟨?decode, fun hr => qimEncode_congr_tie t u ?bit0, fun hr => qimEncode_congr_tie t u ?bit1, fun hr => ?dist0, fun hr => ?dist1⟩
  case decode => rw [Bool.eq_iff_iff, qimDecode_iff t c hpos heven, qimDecode_iff u c hpos heven]
  case bit0 =>
    rw [latticeOffset_false, sub_zero]
    omega
  case bit1 =>
    rw [latticeOffset_true, emod_sub_half c hpos]
    split <;> omega
  case dist0 =>
    rw [abs_sub_lattice0 t c hpos, hr]
    omega
  case dist1 =>
    rw [abs_sub_lattice1 t c hpos heven, hr, zero_sub, abs_neg, abs_of_nonneg (by omega)]

/-! ### Decode of a lattice point with an error (41_qim.md R171) -/

theorem OnLattice.add_emod (h : OnLattice b q x) (e : Int) : (x + e) % q = (latticeOffset b q + e) % q := by
  obtain ⟨k, rfl⟩ := h
  rw [add_assoc, add_comm (k * q), Int.add_mul_emod_self_right]

/-- An error of a quarter step at most leaves the bit, but for bit 1 at the quarter itself. -/
theorem qimDecode_add_of_onLattice (tie : RoundTie) (hq : 0 < q) (heven : q % 2 = 0) (h : OnLattice b q x) (he : 4 * |e| ≤ q) :
    qimDecode tie (x + e) q = (b && decide (4 * |e| < q)) := by
  rw [Bool.eq_iff_iff, qimDecode_iff tie _ hq heven, h.add_emod]
  rw [Int.abs_eq_natAbs] at *
  cases b with
  | false =>
    rw [latticeOffset_false, zero_add, emod_eq_ite (by omega) (by omega), Bool.false_and]
    refine iff_of_false ?_ Bool.false_ne_true
    split <;> omega
  | true =>
    rw [latticeOffset_true, Int.emod_eq_of_lt (by omega) (by omega), Bool.true_and, decide_eq_true_iff]
    omega

/-- Decode of what Encode made (41_qim.md R171(a)). -/
theorem qimDecode_qimEncode (tie : RoundTie) (c : Word) (b : Bool) {q : Word} (hq : legalStep q = true) :
    qimDecode tie (qimEncode tie c.toInt b q.toNat) q.toNat = b := by
  obtain ⟨heven, hpos, hmax⟩ := legalStep_int hq
  have h := qimDecode_add_of_onLattice tie hpos heven (qimEncode_onLattice tie c.toInt b hmax) (e := 0) (by simp)
  rwa [add_zero, abs_zero, mul_zero, decide_eq_true hpos, Bool.and_true] at h

/-- Settles O14: Encode lands on its lattice, where Decode reads the bit up to a quarter step and Encode of the bit rests. -/
theorem stabilityLaws : Obligations.StabilityLaws := by
  intro tie c b q hq
  obtain ⟨heven, hpos, hmax⟩ := legalStep_int hq
  have herr : ∀ e : Int, 4 * |e| ≤ q.toNat →
      qimDecode tie (qimEncode tie c.toInt b q.toNat + e) q.toNat = (b && decide (4 * |e| < q.toNat)) := fun _ =>
    qimDecode_add_of_onLattice tie hpos heven (qimEncode_onLattice tie c.toInt b hmax)
  refine ⟨qimDecode_qimEncode tie c b hq, fun e he _ _ => ?below, fun e he => ?quarter, qimEncode_qimEncode tie c b hq⟩
  case below => rw [herr e he.le, decide_eq_true he, Bool.and_true]
  case quarter => rw [herr e he.le, decide_eq_false he.not_lt, Bool.and_false]

end Sys2Proof.Machine
end

section
/-! PROOFS. The commands of the bit codec, the check of Q, and what NOP, ABORT, QENC and QDEC leave unchanged (41_qim.md R162, R173, R174;
45_system.md R270, R271; 60_exceptions.md R309). -/

namespace Sys2Proof.Machine

variable {s t : State} {b : Bool}

/-! ### Commands that use Q (60_exceptions.md R309) -/

/-- Each command that uses Q checks it before it does anything else, and cannot fail after that. -/
theorem exec_checksStep {i : Instr} (hi : i = .qenc false ∨ i = .qenc true ∨ i = .qdec ∨ i = .embStart ∨ i = .extStart) :
    ∃ body : State → State,
      ∀ s, exec i s = whenReady s fun s => if legalStep s.q then succeed (body s) else raise .badConfig s := by
  obtain rfl | rfl | rfl | rfl | rfl := hi
  all_goals exact ⟨_, fun _ => rfl⟩

/-- Settles O8: an illegal Q is reported and ends the command; with a legal one the command succeeds. -/
theorem badConfigExactly : Obligations.BadConfigExactly := by
  intro i s hi hb
  obtain ⟨body, hexec⟩ := exec_checksStep hi
  rw [hexec, whenReady_idle hb]
  refine ⟨fun hbad => ?illegal, fun heven hlo hhi t h => ?legal⟩
  case illegal => exact if_neg fun hq => by rw [legalStep_iff] at hq; omega
  case legal =>
    rw [if_pos ((legalStep_iff s.q).2 ⟨heven, hlo, hhi⟩), succeed_eq] at h
    exact Host.Outcome.next.inj h ▸ rfl

/-! ### QENC and QDEC (41_qim.md R173, R174) -/

theorem exec_qenc_legal (b : Bool) (hb : s.busy = false) (hq : legalStep s.q = true) :
    exec (.qenc b) s = .next { s with coefOut := encodeWord s.build.roundTie s.coefIn b s.q, cmdErr := .ok } := by
  rw [exec_qenc, execQenc, whenReady_idle hb, if_pos hq]
  rfl

theorem exec_qdec_legal (hb : s.busy = false) (hq : legalStep s.q = true) :
    exec .qdec s = .next { s with bitOut := decodeWord s.build.roundTie s.coefIn s.q, cmdErr := .ok } := by
  rw [exec_qdec, execQdec, whenReady_idle hb, if_pos hq]
  rfl

/-- Settles O16: each writes its result and its code. -/
theorem codecEffects : Obligations.CodecEffects := fun _ hb hq =>
  ⟨fun b => exec_qenc_legal b hb hq, exec_qdec_legal hb hq⟩

theorem decodeWord_encodeWord (tie : RoundTie) (c : Word) (b : Bool) {q : Word} (hq : legalStep q = true) :
    decodeWord tie (encodeWord tie c b q) q = b := by
  rw [decodeWord, encodeWord_toInt tie c b hq, qimDecode_qimEncode tie c b hq]

theorem encodeWord_encodeWord (tie : RoundTie) (c : Word) (b : Bool) {q : Word} (hq : legalStep q = true) :
    encodeWord tie (encodeWord tie c b q) b q = encodeWord tie c b q := by
  rw [encodeWord, encodeWord_toInt tie c b hq, qimEncode_qimEncode tie c b hq, ← encodeWord]

/-- Settles O17: QENC keeps Q and BUSY, so both commands complete on the coefficient it made. -/
theorem qencQdecRoundTrip : Obligations.QencQdecRoundTrip := by
  intro s t b hb hq h
  rw [exec_qenc_legal b hb hq] at h
  obtain rfl := Host.Outcome.next.inj h
  exact ⟨⟨_, exec_qdec_legal hb hq, decodeWord_encodeWord _ _ _ hq⟩, ⟨_, exec_qenc_legal b hb hq, encodeWord_encodeWord _ _ _ hq⟩⟩

/-! ### All that each command can answer (45_system.md R270, R271, R274) -/

theorem exec_nop_next (h : exec .nop s = .next t) : t = s.setOverrun ∨ t = s.setCmdErr .ok := by
  rw [exec_nop, execNop] at h
  obtain ⟨-, rfl⟩ | ⟨-, h⟩ := whenReady_next h
  · exact .inl rfl
  · exact .inr (Host.Outcome.next.inj h).symm

theorem exec_abort_next (h : exec .abort s = .next t) : t = s.setOverrun ∨ t = s.endRun.setCmdErr .ok := by
  rw [exec_abort, execAbort] at h
  obtain ⟨-, rfl⟩ | ⟨-, h⟩ := whenReady_next h
  · exact .inl rfl
  · exact .inr (Host.Outcome.next.inj h).symm

theorem exec_qenc_next (h : exec (.qenc b) s = .next t) :
    t = s.setOverrun ∨ t = s.setCmdErr .badConfig ∨ ∃ c, t = { s with coefOut := c, cmdErr := .ok } := by
  rw [exec_qenc, execQenc] at h
  obtain ⟨-, rfl⟩ | ⟨-, h⟩ := whenReady_next h
  · exact .inl rfl
  split at h
  · exact .inr (.inr ⟨_, (Host.Outcome.next.inj h).symm⟩)
  · exact .inr (.inl (Host.Outcome.next.inj h).symm)

theorem exec_qdec_next (h : exec .qdec s = .next t) :
    t = s.setOverrun ∨ t = s.setCmdErr .badConfig ∨ ∃ v, t = { s with bitOut := v, cmdErr := .ok } := by
  rw [exec_qdec, execQdec] at h
  obtain ⟨-, rfl⟩ | ⟨-, h⟩ := whenReady_next h
  · exact .inl rfl
  split at h
  · exact .inr (.inr ⟨_, (Host.Outcome.next.inj h).symm⟩)
  · exact .inr (.inl (Host.Outcome.next.inj h).symm)

/-- Settles O40: every answer of these commands is written with the named fields alone, and no command writes a memory. -/
theorem codecAndControlFrame : Obligations.CodecAndControlFrame := by
  intro s t
  refine ⟨fun h => ⟨?nop, exec_sameMemory h⟩, fun h => ⟨?abort, exec_sameMemory h⟩, fun b h => ⟨?qenc, exec_sameMemory h⟩,
    fun h => ⟨?qdec, exec_sameMemory h⟩⟩
  case nop => obtain rfl | rfl := exec_nop_next h <;> rfl
  case abort => obtain rfl | rfl := exec_abort_next h <;> rfl
  case qenc => obtain rfl | rfl | ⟨c, rfl⟩ := exec_qenc_next h <;> rfl
  case qdec => obtain rfl | rfl | ⟨v, rfl⟩ := exec_qdec_next h <;> rfl

end Sys2Proof.Machine
end

section
/-! PROOFS. The iterator (42_iterator.md R190..R196): ITER_RESET and ITER_NEXT outside an active run, and the sequence of First and Next,
counted by bands of a frame and blocks of a band. -/

namespace Sys2Proof.Machine

variable {s : State} {w h : Half} {n r k : Nat}

/-! ### ITER_RESET and ITER_NEXT outside an active run (42_iterator.md R195, R196) -/

theorem exec_iterReset_free (hb : s.busy = false) (hr : s.run ≠ .active) :
    exec .iterReset s = .next ((s.setIter (iterFirst s.frameW s.frameH)).setCmdErr .ok) := by
  rw [exec_iterReset, execIterReset, whenReady_idle hb, whenNoActiveRun, if_neg hr, succeed_eq]

theorem exec_iterNext_invalid (hb : s.busy = false) (hr : s.run ≠ .active) (hv : s.iterValid = false) :
    exec .iterNext s = .next (s.setCmdErr .ok) := by
  rw [exec_iterNext, execIterNext, whenReady_idle hb, whenNoActiveRun, if_neg hr, if_neg (Bool.eq_false_iff.1 hv), succeed_eq]

theorem exec_iterNext_valid (hb : s.busy = false) (hr : s.run ≠ .active) (hv : s.iterValid = true) :
    exec .iterNext s = .next ((s.setIter (iterStep s.frameW s.frameH s.iterRow s.iterCol)).setCmdErr .ok) := by
  rw [exec_iterNext, execIterNext, whenReady_idle hb, whenNoActiveRun, if_neg hr, if_pos hv, succeed_eq]

/-- Settles O18: First and Next of the live frame, in each of Next's cases. -/
theorem iteratorCommandEffects : Obligations.IteratorCommandEffects := by
  intro s hb hr
  refine ⟨exec_iterReset_free hb hr, exec_iterNext_invalid hb hr, fun hv hc => ?right, fun hv hc hd => ?down, fun hv hc hd => ?stop⟩
  case right => rw [exec_iterNext_valid hb hr hv, iterStep_right _ _ hc, ← hv]; rfl
  case down => rw [exec_iterNext_valid hb hr hv, iterStep_down hc hd, ← hv]; rfl
  case stop => rw [exec_iterNext_valid hb hr hv, iterStep_end hc hd]; rfl

/-! ### The sequence of First and Next (42_iterator.md R193) -/

/-- Once invalid, the position stays. -/
theorem iterAt_succ_of_invalid (hv : (iterAt w h n).1 = false) : iterAt w h (n + 1) = iterAt w h n :=
  if_neg (Bool.eq_false_iff.1 hv)

/-- The valid position of block `k` of band `r`, both counted from 0. -/
def blockAt (r k : Nat) : Bool × Half × Half := (true, BitVec.ofNat 16 (8 * r), BitVec.ofNat 16 (8 * k))

/-- A multiple of 8 below a frame dimension fits its 16 bits. -/
theorem toNat_ofNat_eight_mul (hr : r < h.toNat / 8) : (BitVec.ofNat 16 (8 * r)).toNat = 8 * r := by
  have := h.isLt
  rw [BitVec.toNat_ofNat]
  omega

theorem ofNat_eight_mul_succ (r : Nat) : BitVec.ofNat 16 (8 * (r + 1)) = BitVec.ofNat 16 (8 * r) + 8 := by
  rw [Nat.mul_succ, BitVec.ofNat_add]
  rfl

theorem blockAt_eq_iff {row col : Half} (hr : r < h.toNat / 8) (hk : k < w.toNat / 8) :
    blockAt r k = (true, row, col) ↔ row.toNat = 8 * r ∧ col.toNat = 8 * k := by
  rw [← toNat_ofNat_eight_mul hr, ← toNat_ofNat_eight_mul hk, BitVec.toNat_inj, BitVec.toNat_inj]
  simp [blockAt, eq_comm]

theorem iterAt_succ_of_blockAt (e : iterAt w h n = blockAt r k) :
    iterAt w h (n + 1) = iterStep w h (BitVec.ofNat 16 (8 * r)) (BitVec.ofNat 16 (8 * k)) := by
  rw [iterAt, e]
  rfl

theorem iterAt_succ_right (e : iterAt w h n = blockAt r k) (hk : k + 1 < w.toNat / 8) : iterAt w h (n + 1) = blockAt r (k + 1) := by
  have hcol := toNat_ofNat_eight_mul (Nat.lt_of_succ_lt hk)
  rw [iterAt_succ_of_blockAt e, iterStep_right _ _ (by omega), blockAt, ofNat_eight_mul_succ]

theorem iterAt_succ_down (e : iterAt w h n = blockAt r k) (hk : k + 1 = w.toNat / 8) (hr : r + 1 < h.toNat / 8) :
    iterAt w h (n + 1) = blockAt (r + 1) 0 := by
  have hcol := toNat_ofNat_eight_mul (Nat.lt_of_succ_le hk.le)
  have hrow := toNat_ofNat_eight_mul (Nat.lt_of_succ_lt hr)
  rw [iterAt_succ_of_blockAt e, iterStep_down (by omega) (by omega), blockAt, ofNat_eight_mul_succ]
  rfl

theorem iterAt_succ_end (e : iterAt w h n = blockAt r k) (hk : k + 1 = w.toNat / 8) (hr : r + 1 = h.toNat / 8) :
    (iterAt w h (n + 1)).1 = false := by
  have hcol := toNat_ofNat_eight_mul (Nat.lt_of_succ_le hk.le)
  have hrow := toNat_ofNat_eight_mul (Nat.lt_of_succ_le hr.le)
  rw [iterAt_succ_of_blockAt e, iterStep_end (by omega) (by omega)]

/-- From the first block of a band on, Next goes through the band. -/
theorem iterAt_band (e : iterAt w h n = blockAt r 0) (hk : k < w.toNat / 8) : iterAt w h (n + k) = blockAt r k := by
  induction k with
  | zero => exact e
  | succ k ih => exact iterAt_succ_right (ih (Nat.lt_of_succ_lt hk)) hk

theorem iterAt_bandStart (hw : 0 < w.toNat / 8) (hr : r < h.toNat / 8) : iterAt w h (w.toNat / 8 * r) = blockAt r 0 := by
  induction r with
  | zero =>
    have hfirst : 8 ≤ w.toNat ∧ 8 ≤ h.toNat := by omega
    rw [Nat.mul_zero, iterAt, iterFirst_eq, decide_eq_true hfirst]
    rfl
  | succ r ih =>
    have hlast : w.toNat / 8 - 1 + 1 = w.toNat / 8 := Nat.sub_add_cancel hw
    have e := iterAt_succ_down (iterAt_band (ih (Nat.lt_of_succ_lt hr)) (Nat.sub_one_lt_of_lt hw)) hlast hr
    rwa [Nat.add_assoc, hlast, ← Nat.mul_add_one] at e

/-- Block `k` of band `r` comes after `r` whole bands and `k` blocks. -/
theorem iterAt_eq_blockAt (hr : r < h.toNat / 8) (hk : k < w.toNat / 8) : iterAt w h (w.toNat / 8 * r + k) = blockAt r k :=
  iterAt_band (iterAt_bandStart (Nat.zero_lt_of_lt hk) hr) hk

/-- A frame without a block has no valid position, and after its last block there is none. -/
theorem iterAt_invalid (hn : h.toNat / 8 * (w.toNat / 8) ≤ n) : (iterAt w h n).1 = false := by
  induction n, hn using Nat.le_induction with
  | base =>
    rcases Nat.eq_zero_or_pos (h.toNat / 8 * (w.toNat / 8)) with h0 | hpos
    · have hnone : ¬(8 ≤ w.toNat ∧ 8 ≤ h.toNat) := by
        rcases Nat.mul_eq_zero.1 h0 with hh | hw <;> omega
      rw [h0, iterAt, iterFirst_eq, decide_eq_false hnone]
    · have hrow : h.toNat / 8 - 1 + 1 = h.toNat / 8 := Nat.sub_add_cancel (Nat.pos_of_mul_pos_right hpos)
      have hcol : w.toNat / 8 - 1 + 1 = w.toNat / 8 := Nat.sub_add_cancel (Nat.pos_of_mul_pos_left hpos)
      have e := iterAt_succ_end (iterAt_eq_blockAt hrow.le hcol.le) hcol hrow
      rwa [Nat.add_assoc, hcol, ← Nat.mul_add_one, hrow, Nat.mul_comm] at e
  | succ n _ ih => rw [iterAt_succ_of_invalid ih, ih]

/-- The place of the n-th block: its band and its place in the band. -/
theorem iterAt_eq_blockAt_div (hn : n < h.toNat / 8 * (w.toNat / 8)) :
    n / (w.toNat / 8) < h.toNat / 8 ∧ n % (w.toNat / 8) < w.toNat / 8
      ∧ iterAt w h n = blockAt (n / (w.toNat / 8)) (n % (w.toNat / 8)) := by
  have hr : n / (w.toNat / 8) < h.toNat / 8 := Nat.div_lt_of_lt_mul (Nat.mul_comm _ _ ▸ hn)
  have hk : n % (w.toNat / 8) < w.toNat / 8 := Nat.mod_lt _ (Nat.pos_of_lt_mul_left hn)
  have e := iterAt_eq_blockAt hr hk
  rw [Nat.div_add_mod] at e
  exact ⟨hr, hk, e⟩

/-- Settles O19: the valid positions are the blocks, band by band, and block `k` of band `r` is the only one at (8 r, 8 k). -/
theorem iteratorOrder : Obligations.IteratorOrder := by
  intro w h
  refine ⟨fun n hn => ?position, fun n hn => iterAt_invalid hn, fun row col => ⟨fun ⟨n, hn, e⟩ => ?block,
    fun ⟨hr8, hc8, hr, hc⟩ => ?yield⟩⟩
  case position =>
    obtain ⟨hr, hk, e⟩ := iterAt_eq_blockAt_div hn
    have hrow := toNat_ofNat_eight_mul hr
    have hcol := toNat_ofNat_eight_mul hk
    have := h.isLt
    have := w.isLt
    rw [e]
    exact ⟨rfl, hrow, hcol, hrow.trans_le (by omega), hcol.trans_le (by omega)⟩
  case block =>
    obtain ⟨hr, hk, e'⟩ := iterAt_eq_blockAt_div hn
    obtain ⟨hrow, hcol⟩ := (blockAt_eq_iff hr hk).1 (e'.symm.trans e)
    omega
  case yield =>
    have hrow : row.toNat / 8 < h.toNat / 8 := by omega
    have hcol : col.toNat / 8 < w.toNat / 8 := by omega
    refine ⟨w.toNat / 8 * (row.toNat / 8) + col.toNat / 8, ?_, ?_⟩
    · calc w.toNat / 8 * (row.toNat / 8) + col.toNat / 8
        _ < w.toNat / 8 * (row.toNat / 8 + 1) := Nat.add_lt_add_left hcol _
        _ ≤ w.toNat / 8 * (h.toNat / 8) := Nat.mul_le_mul_left _ hrow
        _ = h.toNat / 8 * (w.toNat / 8) := Nat.mul_comm _ _
    · rw [iterAt_eq_blockAt hrow hcol, blockAt_eq_iff hrow hcol]
      omega

end Sys2Proof.Machine
end

section
/-! PROOFS. What a block step writes (43_embed.md R214; 44_extract.md R243): the samples of an embedded block, and the bit an extract step
appends to the accumulator. -/

namespace Sys2Proof.Machine

variable {x : Transform} {s t : State}

/-! ### The embed block step (43_embed.md R214) -/

theorem embedBlock_fmemByte (h : embedBlock x s = .next t) (a : Nat) :
    t.fmemByte a = (s.writeBlock (embeddedBlock x s s.cursorBit)).fmemByte a := by
  obtain ⟨-, -, rfl⟩ := embedBlock_next h
  exact State.fmemByte_congr rfl a

theorem embedBlock_pmemByte (h : embedBlock x s = .next t) (a : Nat) : t.pmemByte a = s.pmemByte a := by
  obtain ⟨-, -, rfl⟩ := embedBlock_next h
  exact State.pmemByte_congr rfl a

/-- Settles O28: the block written back is the embedded one, at the 64 addresses of the block. -/
theorem embedStepMemory : Obligations.EmbedStepMemory := by
  rintro x s t _ hb hm hc rfl h
  rw [coreTurn_embed x hb hm] at h
  have hw : 8 ≤ s.lw.toNat := (Nat.le_add_left 8 _).trans hc
  exact ⟨fun i j => (embedBlock_fmemByte h _).trans (State.writeBlock_same s _ hw i j),
    fun a ha => (embedBlock_fmemByte h a).trans (State.writeBlock_other s _ ha), embedBlock_pmemByte h⟩

/-! ### The extract block step (44_extract.md R243) -/

/-- `s` with the fields that the checks at the end of an extract block step may write, taken from `v` (44_extract.md R244..R247). -/
def State.withChecks (s v : State) : State :=
  { s with
    busy := v.busy, run := v.run, runErr := v.runErr, cmdErr := v.cmdErr, errExp := v.errExp, errObs := v.errObs,
    bitsReq := v.bitsReq, hdrValid := v.hdrValid, resLen := v.resLen, resOff := v.resOff }

theorem State.completeOrWait_withChecks (s : State) : s.completeOrWait = s.withChecks s.completeOrWait := by
  rcases s.completeOrWait_cases with ⟨-, -, e⟩ | ⟨-, e⟩ <;> rw [e] <;> rfl

theorem State.checkHeader_withChecks (h : s.checkHeader = .next t) : t = s.withChecks t := by
  rcases State.checkHeader_next h with ⟨-, -, -, rfl⟩ | ⟨-, -, -, rfl⟩ | ⟨-, rfl⟩
  · rfl
  · rw [State.completeOrWait_withChecks]
    rfl
  · exact s.completeOrWait_withChecks

/-- An extract block step appends its bit and advances; then only the checks write. -/
theorem extractBlock_withChecks (h : extractBlock x s = .next t) :
    ∃ v, t = (s.appendBit (extractedBit x s)).advance.withChecks v := by
  obtain ⟨-, -, h⟩ := extractBlock_next h
  exact ⟨t, State.checkHeader_withChecks h⟩

/-- An extract block step writes the accumulator and its length, the position, and what the checks write. -/
theorem extractBlock_writes (h : extractBlock x s = .next t) :
    ∃ u v : State, t = State.withChecks (State.advance { s with
      hdr := u.hdr, pmem := u.pmem, byteSr := u.byteSr, bitsDone := s.bitsDone + 1 }) v := by
  obtain ⟨v, rfl⟩ := extractBlock_withChecks h
  exact ⟨s.appendBit (extractedBit x s), v, congrArg (fun u => u.advance.withChecks v) (State.appendBit_frame s _)⟩

/-- A header bit shifts into its header byte. -/
theorem extractBlock_header (h : extractBlock x s = .next t) (hj : s.bitsDone.toNat < headerBits s.build) :
    (∀ k, t.hdrByte k = if s.bitsDone.toNat / 8 = k then shiftIn (s.hdrByte (s.bitsDone.toNat / 8)) (extractedBit x s) else s.hdrByte k)
      ∧ t.byteSr = s.byteSr ∧ t.pmem = s.pmem := by
  obtain ⟨v, rfl⟩ := extractBlock_withChecks h
  have := headerBits_le s.build
  rw [State.appendBit_header _ hj]
  exact ⟨fun k => State.hdrByte_set s _ k (by omega), rfl, rfl⟩

/-- A payload bit shifts into the byte under assembly, which its eighth bit stores. -/
theorem extractBlock_payload (h : extractBlock x s = .next t) (hj : headerBits s.build ≤ s.bitsDone.toNat) :
    t.byteSr = shiftIn s.byteSr (extractedBit x s) ∧ t.hdr = s.hdr
      ∧ t.pmem = if (s.bitsDone.toNat - headerBits s.build) % 8 = 7 then
          (s.setPmem (payloadAddr s.build s.bitsDone.toNat) (shiftIn s.byteSr (extractedBit x s))).pmem else s.pmem := by
  obtain ⟨v, rfl⟩ := extractBlock_withChecks h
  by_cases h7 : (s.bitsDone.toNat - headerBits s.build) % 8 = 7
  · rw [State.appendBit_store _ hj h7, if_pos h7]
    exact ⟨rfl, rfl, rfl⟩
  · rw [State.appendBit_shift _ hj h7, if_neg h7]
    exact ⟨rfl, rfl, rfl⟩

/-- Settles O34: in the header and past it, the bit goes where the accumulator ends; the rest is the frame of the append, of Next and of
the checks. -/
theorem extractStepAppends : Obligations.ExtractStepAppends := by
  rintro x s t _ hb hm rfl h
  rw [coreTurn_extract x hb hm] at h
  obtain ⟨u, v, e⟩ := extractBlock_writes h
  refine ⟨congrArg State.bitsDone e, congrArg (fun t : State => (t.iterValid, t.iterRow, t.iterCol)) e, ?frame,
    State.fmemByte_congr (congrArg State.fmem e :), fun hj => ?header, fun hj => ?payload⟩
  case frame => rw [e]; rfl
  case header =>
    obtain ⟨hhdr, hsr, hpmem⟩ := extractBlock_header h hj
    exact ⟨(hhdr _).trans (if_pos rfl), fun k hk => (hhdr k).trans (if_neg hk.symm), hsr, State.pmemByte_congr hpmem⟩
  case payload =>
    obtain ⟨hsr, hhdr, hpmem⟩ := extractBlock_payload h hj
    have hmod : (s.bitsDone.toNat - headerBits s.build) % 8 = s.bitsDone.toNat % 8 := by
      rw [headerBits_eq]
      omega
    rw [hmod] at hpmem
    refine ⟨hsr, congrFun (State.hdrByte_congr hhdr), fun h7 => ?_, fun h7 => State.pmemByte_congr (hpmem.trans (if_neg h7))⟩
    have hstore := State.pmemByte_congr (hpmem.trans (if_pos h7))
    exact ⟨(hstore _).trans (State.pmemByte_setPmem_same s _ _), fun a ha => (hstore a).trans (State.pmemByte_setPmem_other s _ ha)⟩

end Sys2Proof.Machine
end

section
/-! PROOFS. EMB_START and EMB_FRAME (43_embed.md R211, R212, R213), and all that the START, frame and END commands can answer, and so
what they leave unchanged (R216; 44_extract.md R240, R242, R248; 45_system.md R274). -/

namespace Sys2Proof.Machine

variable {s t : State}

/-! ### EMB_START and EMB_FRAME (43_embed.md R211..R213) -/

/-- Settles O25: the check of Q passes, and the START writes the run's fields and its code. -/
theorem embStartEffect : Obligations.EmbStartEffect := by
  intro s hb hq
  rw [exec_embStart, execEmbStart, whenReady_idle hb, if_pos hq, succeed_eq]
  rfl

/-- A frame below 8 in a dimension has no block to begin at. -/
theorem State.beginFrame_noBlock (hb : s.busy = false) (h : s.lw.toNat < 8 ∨ s.lh.toNat < 8) :
    s.beginFrame = { s with iterValid := false, iterRow := 0, iterCol := 0 } := by
  have hnone : ¬(8 ≤ s.lw.toNat ∧ 8 ≤ s.lh.toNat) := by omega
  rw [State.beginFrame_eq, decide_eq_false hnone, ← hb]

theorem State.beginFrame_block (hw : 8 ≤ s.lw.toNat) (hh : 8 ≤ s.lh.toNat) :
    s.beginFrame = { s with iterValid := true, iterRow := 0, iterCol := 0, busy := true } := by
  rw [State.beginFrame_eq, decide_eq_true ⟨hw, hh⟩]

theorem exec_embFrame_exhausted (hb : s.busy = false) (hm : s.mode = .embed) (hr : s.run = .active) (he : s.exhausted = true) :
    exec .embFrame s = .next (s.countFrame.setCmdErr .ok) := by
  rw [exec_embFrame, execEmbFrame, whenReady_idle hb, if_pos ⟨hm, hr⟩, if_pos he, succeed_eq]

theorem exec_embFrame_begins (hb : s.busy = false) (hm : s.mode = .embed) (hr : s.run = .active) (he : s.exhausted = false) :
    exec .embFrame s = .next (s.countFrame.beginFrame.setCmdErr .ok) := by
  rw [exec_embFrame, execEmbFrame, whenReady_idle hb, if_pos ⟨hm, hr⟩, if_neg (Bool.eq_false_iff.1 he), succeed_eq]

/-- Settles O26: after exhaustion the frame is only counted; else it begins, with or without a block. -/
theorem embFrameEffect : Obligations.EmbFrameEffect := by
  intro s hb hm hr
  refine ⟨exec_embFrame_exhausted hb hm hr, fun he hsmall => ?noBlock, fun he hw hh => ?block⟩
  case noBlock => rw [exec_embFrame_begins hb hm hr he, State.beginFrame_noBlock (s := s.countFrame) hb hsmall]; rfl
  case block => rw [exec_embFrame_begins hb hm hr he, State.beginFrame_block (s := s.countFrame) hw hh]; rfl

/-! ### All that the START, frame and END commands can answer -/

/-- A command that checks Q is dropped, or writes BAD_CONFIG alone, or does its body. -/
theorem checksStep_next {body : State → State}
    (h : (whenReady s fun s => if legalStep s.q then succeed (body s) else raise .badConfig s) = .next t) :
    t = s.setOverrun ∨ t = s.setCmdErr .badConfig ∨ t = (body s).setCmdErr .ok := by
  obtain ⟨-, rfl⟩ | ⟨-, h⟩ := whenReady_next h
  · exact .inl rfl
  split at h
  · exact .inr (.inr (Host.Outcome.next.inj h).symm)
  · exact .inr (.inl (Host.Outcome.next.inj h).symm)

theorem exec_embStart_next (h : exec .embStart s = .next t) :
    t = s.setOverrun ∨ t = s.setCmdErr .badConfig
      ∨ t = (s.startRun .embed s.payLen (streamBits s.build s.payLen.toNat)).setCmdErr .ok :=
  checksStep_next (body := fun s => s.startRun .embed s.payLen (streamBits s.build s.payLen.toNat)) h

theorem exec_extStart_next (h : exec .extStart s = .next t) :
    t = s.setOverrun ∨ t = s.setCmdErr .badConfig
      ∨ t = State.setCmdErr { s.startRun .extract 0 0 with hdr := Vector.replicate 64 0, byteSr := 0 } .ok :=
  checksStep_next (body := fun s => { s.startRun .extract 0 0 with hdr := Vector.replicate 64 0, byteSr := 0 }) h

/-- EMB_FRAME is dropped, or writes its code alone, or counts the frame, or counts it and begins. -/
theorem exec_embFrame_next (h : exec .embFrame s = .next t) :
    t = s.setOverrun ∨ (∃ c, t = s.setCmdErr c) ∨ t = s.countFrame.setCmdErr .ok ∨ t = s.countFrame.beginFrame.setCmdErr .ok := by
  rw [exec_embFrame, execEmbFrame] at h
  obtain ⟨-, rfl⟩ | ⟨-, h⟩ := whenReady_next h
  · exact .inl rfl
  split at h
  · split at h
    · exact .inr (.inr (.inl (Host.Outcome.next.inj h).symm))
    · exact .inr (.inr (.inr (Host.Outcome.next.inj h).symm))
  · exact .inr (.inl ⟨_, (Host.Outcome.next.inj h).symm⟩)

/-- EXT_FRAME is dropped, or writes its code alone, or counts the frame and begins. -/
theorem exec_extFrame_next (h : exec .extFrame s = .next t) :
    t = s.setOverrun ∨ (∃ c, t = s.setCmdErr c) ∨ t = s.countFrame.beginFrame.setCmdErr .ok := by
  rw [exec_extFrame, execExtFrame] at h
  obtain ⟨-, rfl⟩ | ⟨-, h⟩ := whenReady_next h
  · exact .inl rfl
  split at h
  · exact .inr (.inr (Host.Outcome.next.inj h).symm)
  · exact .inr (.inl ⟨_, (Host.Outcome.next.inj h).symm⟩)

/-- EMB_END is dropped, or writes its code alone, or ends the run with its warning. -/
theorem exec_embEnd_next (h : exec .embEnd s = .next t) :
    t = s.setOverrun ∨ (∃ c, t = s.setCmdErr c)
      ∨ ∃ p e o, t = { s with partialEmb := p, run := .done, errExp := e, errObs := o, cmdErr := .ok } := by
  rw [exec_embEnd, execEmbEnd] at h
  obtain ⟨-, rfl⟩ | ⟨-, h⟩ := whenReady_next h
  · exact .inl rfl
  split at h
  · split at h
    · split at h
      · exact .inr (.inr ⟨_, _, _, (Host.Outcome.next.inj h).symm⟩)
      · exact .inr (.inr ⟨_, _, _, (Host.Outcome.next.inj h).symm⟩)
    · exact .inr (.inl ⟨_, (Host.Outcome.next.inj h).symm⟩)
  · exact .inr (.inl ⟨_, (Host.Outcome.next.inj h).symm⟩)

/-- EXT_END is dropped, or writes its code alone, or fails the run with its counts. -/
theorem exec_extEnd_next (h : exec .extEnd s = .next t) :
    t = s.setOverrun ∨ (∃ c, t = s.setCmdErr c)
      ∨ ∃ e o, t = ((s.setCounts e o).failRun .streamTruncated).setCmdErr .streamTruncated := by
  rw [exec_extEnd, execExtEnd] at h
  obtain ⟨-, rfl⟩ | ⟨-, h⟩ := whenReady_next h
  · exact .inl rfl
  split at h
  · split at h
    · exact .inr (.inr ⟨_, _, (Host.Outcome.next.inj h).symm⟩)
    · exact .inr (.inl ⟨_, (Host.Outcome.next.inj h).symm⟩)
  · exact .inr (.inl ⟨_, (Host.Outcome.next.inj h).symm⟩)

/-- Settles O42: every answer of these commands is written with the named fields alone, and no command writes a memory. -/
theorem runCommandsFrame : Obligations.RunCommandsFrame := by
  intro s t
  refine ⟨fun h => ⟨?embStart, exec_sameMemory h⟩, fun h => ⟨?extStart, exec_sameMemory h⟩,
    fun i hi h => ⟨?frame, exec_sameMemory h⟩, fun h => ⟨?embEnd, exec_sameMemory h⟩, fun h => ⟨?extEnd, exec_sameMemory h⟩⟩
  case embStart => obtain rfl | rfl | rfl := exec_embStart_next h <;> rfl
  case extStart => obtain rfl | rfl | rfl := exec_extStart_next h <;> rfl
  case frame =>
    obtain rfl | rfl := hi
    · obtain rfl | ⟨c, rfl⟩ | rfl | rfl := exec_embFrame_next h <;> rfl
    · obtain rfl | ⟨c, rfl⟩ | rfl := exec_extFrame_next h <;> rfl
  case embEnd => obtain rfl | ⟨c, rfl⟩ | ⟨p, e, o, rfl⟩ := exec_embEnd_next h <;> rfl
  case extEnd => obtain rfl | ⟨c, rfl⟩ | ⟨e, o, rfl⟩ := exec_extEnd_next h <;> rfl

end Sys2Proof.Machine
end

section
/-! PROOFS. The embed block step and the end of an embed frame (43_embed.md R214, R215, R217; 45_system.md R276;
70_reset_and_hazards.md R355): each turn of the Core takes one block off those that are left, and one bit off the stream. -/

namespace Sys2Proof.Machine

variable {x : Transform} {s t : State} {w h : Half} {n : Nat}

/-! ### The registers after an embed block step (43_embed.md R214, R215) -/

/-- Settles O29: the two premises are those of `embedBlock_answers`, and `embedBlock_next` is the state answered. -/
theorem embedStepRegisters : Obligations.EmbedStepRegisters := by
  intro x s hb hm hf hp
  obtain ⟨t, ht⟩ := embedBlock_answers x (s := s) (decide_eq_true hf) hp
  refine ⟨t, (coreTurn_embed x hb hm).trans ht, ?_⟩
  obtain ⟨-, -, rfl⟩ := embedBlock_next ht
  exact ⟨rfl, rfl, rfl, by simp [hb]⟩

/-- Only the end of the stream or of the frame clears BUSY. -/
theorem embedBlock_idle (h : embedBlock x s = .next t) (hb : s.busy = true) (ht : t.busy = false) :
    t.exhausted = true ∨ t.iterValid = false := by
  obtain ⟨-, -, rfl⟩ := embedBlock_next h
  simpa only [hb, Bool.true_and, Bool.not_eq_false', Bool.or_eq_true, Bool.not_eq_true'] using ht

/-! ### Where a frame stands -/

theorem iterAt_valid_iff : (iterAt w h n).1 = true ↔ n < h.toNat / 8 * (w.toNat / 8) := by
  refine ⟨fun hv => not_le.1 fun hn => (nomatch (iterAt_invalid hn).symm.trans hv), fun hn => ?_⟩
  obtain ⟨-, -, e⟩ := iterAt_eq_blockAt_div hn
  rw [e]
  rfl

/-- The number of blocks of the latched frame (42_iterator.md R193). -/
def State.frameBlocks (s : State) : Nat := s.lh.toNat / 8 * (s.lw.toNat / 8)

/-- ITER_POS and ITER_VALID are those of block `n` of the latched frame, counted from 0. -/
def State.AtBlock (s : State) (n : Nat) : Prop := (s.iterValid, s.iterRow, s.iterCol) = iterAt s.lw s.lh n

theorem State.AtBlock.valid_iff (hn : s.AtBlock n) : s.iterValid = true ↔ n < s.frameBlocks := by
  rw [State.frameBlocks, ← iterAt_valid_iff, ← hn]

theorem State.beginFrame_atBlock (s : State) : s.beginFrame.AtBlock 0 := rfl

theorem State.AtBlock.advance (hn : s.AtBlock n) (hv : s.iterValid = true) : s.advance.AtBlock (n + 1) := by
  change iterStep s.lw s.lh s.iterRow s.iterCol = iterAt s.lw s.lh (n + 1)
  rw [iterAt, ← hn]
  exact (if_pos hv).symm

theorem embedBlock_atBlock (h : embedBlock x s = .next t) (hn : s.AtBlock n) (hv : s.iterValid = true) : t.AtBlock (n + 1) := by
  obtain ⟨-, -, rfl⟩ := embedBlock_next h
  exact hn.advance hv

theorem coreTurns_succ (k : Nat) (h : coreTurn x s = .next t) : coreTurns x (k + 1) s = coreTurns x k t := by
  rw [coreTurns, h]

/-! ### The end of an embed frame (43_embed.md R212, R217) -/

/-- A busy embed frame is short of the end of its stream (43_embed.md R213). -/
theorem State.EmbedInv.bitsDone_lt (hs : s.EmbedInv) (hb : s.busy = true) (hm : s.mode = .embed) :
    s.bitsDone.toNat < s.bitsReq.toNat := by
  obtain ⟨-, hle, hex, hbusy⟩ := hs hm
  exact lt_of_le_of_ne hle fun e => nomatch (hbusy hb).symm.trans (hex.2 (BitVec.eq_of_toNat_eq e))

/-- An embed run in a frame with `n` blocks to go: a busy one is at the first of these, and an idle one has none left or has embedded its
whole stream. -/
structure State.EmbedBlocksLeft (s : State) (n : Nat) : Prop where
  inv : s.RunInv
  mode : s.mode = .embed
  position : s.busy = true → ∃ i, s.AtBlock i ∧ i + n = s.frameBlocks
  ended : s.busy = false → s.bitsDone = s.bitsReq ∨ n = 0

theorem State.EmbedBlocksLeft.idle (hs : s.EmbedBlocksLeft 0) : s.busy = false := by
  refine Bool.eq_false_of_not_eq_true fun hb => ?_
  obtain ⟨i, hi, hlast⟩ := hs.position hb
  exact (hi.valid_iff.1 (hs.inv.frame hb).1).ne hlast

/-- A turn of the Core embeds one bit, in one block. -/
theorem State.EmbedBlocksLeft.turn (x : Transform) (hs : s.EmbedBlocksLeft (n + 1)) (hb : s.busy = true) :
    ∃ t, coreTurn x s = .next t ∧ t.EmbedBlocksLeft n ∧ t.bitsDone.toNat = s.bitsDone.toNat + 1 ∧ t.bitsReq = s.bitsReq := by
  obtain ⟨i, hi, hleft⟩ := hs.position hb
  obtain ⟨t, ht⟩ := embedBlock_answers x (hs.inv.blockInFmem hb) (hs.inv.embed_payloadAddr hb hs.mode)
  have hinv := embedBlock_runInv hs.inv hb hs.mode ht
  have hnext := embedBlock_atBlock ht hi (hs.inv.frame hb).1
  have hidle := embedBlock_idle ht hb
  refine ⟨t, (coreTurn_embed x hb hs.mode).trans ht, ?_⟩
  obtain ⟨-, -, rfl⟩ := embedBlock_next ht
  refine ⟨⟨hinv, hs.mode, fun _ => ⟨i + 1, hnext, (Nat.succ_add_eq_add_succ i n).trans hleft⟩, fun hend => ?_⟩,
    toNat_add_one_of_lt (hs.inv.embed.bitsDone_lt hb hs.mode), rfl⟩
  obtain he | hv := hidle hend
  · obtain ⟨-, -, hex, -⟩ := hinv.embed hs.mode
    exact .inl (hex.1 he)
  · have hlast : ¬i + 1 < s.frameBlocks := mt hnext.valid_iff.2 (Bool.eq_false_iff.1 hv)
    omega

/-- The Core alone ends the frame, having embedded a bit in each block unless the stream ended first. -/
theorem State.EmbedBlocksLeft.ends (x : Transform) (hs : s.EmbedBlocksLeft n) :
    ∃ k u, k ≤ n ∧ coreTurns x k s = .next u ∧ u.busy = false
      ∧ u.bitsDone.toNat = min s.bitsReq.toNat (s.bitsDone.toNat + n) := by
  induction n generalizing s with
  | zero =>
    obtain ⟨-, hle, -⟩ := hs.inv.embed hs.mode
    exact ⟨0, s, le_rfl, rfl, hs.idle, (min_eq_right hle).symm⟩
  | succ n ih =>
    cases hb : s.busy with
    | false =>
      have hdone := (hs.ended hb).resolve_right (Nat.succ_ne_zero n)
      exact ⟨0, s, Nat.zero_le _, rfl, hb, by rw [hdone, min_eq_left (Nat.le_add_right _ _)]⟩
    | true =>
      obtain ⟨t, ht, hleft, hdone, hreq⟩ := hs.turn x hb
      obtain ⟨k, u, hk, hrun, hu, hbits⟩ := ih hleft
      refine ⟨k + 1, u, Nat.succ_le_succ hk, (coreTurns_succ k ht).trans hrun, hu, ?_⟩
      rw [hbits, hreq, hdone, Nat.succ_add_eq_add_succ]

/-- An accepted embed frame has all its blocks to go. -/
theorem embedBlocksLeft_of_embFrame (hs : s.RunInv) (hb : s.busy = false) (hm : s.mode = .embed) (hr : s.run = .active)
    (h : exec .embFrame s = .next t) :
    t.EmbedBlocksLeft s.frameBlocks ∧ t.bitsReq = s.bitsReq ∧ t.bitsDone = s.bitsDone := by
  have hinv : t.RunInv := by
    obtain ⟨u, hu, he⟩ := exec_effect .embFrame hb
    obtain rfl := Host.Outcome.next.inj (hu.symm.trans h)
    exact he.runInv hs hb
  cases he : s.exhausted with
  | true =>
    obtain rfl := Host.Outcome.next.inj ((exec_embFrame_exhausted hb hm hr he).symm.trans h)
    obtain ⟨-, -, hex, -⟩ := hs.embed hm
    exact ⟨⟨hinv, hm, fun hbusy => (nomatch hb.symm.trans hbusy), fun _ => .inl (hex.1 he)⟩, rfl, rfl⟩
  | false =>
    obtain rfl := Host.Outcome.next.inj ((exec_embFrame_begins hb hm hr he).symm.trans h)
    have hfirst : s.countFrame.beginFrame.AtBlock 0 := s.countFrame.beginFrame_atBlock
    refine ⟨⟨hinv, hm, fun _ => ⟨0, hfirst, Nat.zero_add _⟩, fun hidle => .inr ?_⟩, rfl, rfl⟩
    exact Nat.eq_zero_of_not_pos (mt hfirst.valid_iff.2 (Bool.eq_false_iff.1 hidle))

/-- Settles O30, by induction on the blocks left. -/
theorem embedFrameEnds : Obligations.EmbedFrameEnds := by
  intro x s t hs hb hm hr h
  obtain ⟨hleft, hreq, hdone⟩ := embedBlocksLeft_of_embFrame hs.runInv hb hm hr h
  rw [← hreq, ← hdone]
  exact hleft.ends x

end Sys2Proof.Machine
end

section
/-! PROOFS. EXT_START, EXT_FRAME and EXT_END while BUSY = 0 (44_extract.md R240, R242, R248; 60_exceptions.md R305). -/

namespace Sys2Proof.Machine

variable {s : State}

/-- Settles O31: the check of Q passes, and the START writes the run's fields, the accumulator and its code. -/
theorem extStartEffect : Obligations.ExtStartEffect := by
  intro s hb hq
  rw [exec_extStart, execExtStart, whenReady_idle hb, if_pos hq, succeed_eq]
  rfl

theorem exec_extFrame_begins (hb : s.busy = false) (hm : s.mode = .extract) (hr : s.run = .active) :
    exec .extFrame s = .next (s.countFrame.beginFrame.setCmdErr .ok) := by
  rw [exec_extFrame, execExtFrame, whenReady_idle hb, if_pos ⟨hm, hr⟩, succeed_eq]

/-- Settles O32: the frame is counted and begins, with or without a block. -/
theorem extFrameEffect : Obligations.ExtFrameEffect := by
  intro s hb hm hr
  rw [exec_extFrame_begins hb hm hr]
  refine ⟨fun hsmall => ?noBlock, fun hw hh => ?block⟩
  case noBlock => rw [State.beginFrame_noBlock (s := s.countFrame) hb hsmall]; rfl
  case block => rw [State.beginFrame_block (s := s.countFrame) hw hh]; rfl

/-- EXT_END of an active run fails it: the stream ended before the bits that the header, or HL, asks for (44_extract.md R248). -/
theorem exec_extEnd_active (hb : s.busy = false) (hm : s.mode = .extract) (hr : s.run = .active) :
    exec .extEnd s = .next { s with
      errExp := if s.hdrValid then s.bitsReq else BitVec.ofNat 64 (headerBits s.build), errObs := s.bitsDone, run := .failed,
      runErr := .streamTruncated, cmdErr := .streamTruncated } := by
  rw [exec_extEnd, execExtEnd, whenReady_idle hb, if_pos hm, if_pos hr, raise_eq]
  rfl

theorem exec_extEnd_ended (hb : s.busy = false) (hm : s.mode = .extract) (hr : s.run ≠ .active) :
    exec .extEnd s = .next (s.setCmdErr .ok) := by
  rw [exec_extEnd, execExtEnd, whenReady_idle hb, if_pos hm, if_neg hr, succeed_eq]

/-- Settles O33: HDR_VALID decides which count of bits was expected. -/
theorem extEndEffect : Obligations.ExtEndEffect := by
  intro s hb hm
  refine ⟨fun hr hv => ?valid, fun hr hv => ?header, exec_extEnd_ended hb hm⟩
  case valid => rw [exec_extEnd_active hb hm hr, if_pos hv]
  case header => rw [exec_extEnd_active hb hm hr, if_neg (Bool.eq_false_iff.1 hv), headerBits_eq]

end Sys2Proof.Machine
end

section
/-! PROOFS. How an extract block step ends (44_extract.md R244..R247; 60_exceptions.md R302, R306): the step that completes the header
checks the marker and learns the length; every other step completes the run at BITS_REQ or goes on. -/

namespace Sys2Proof.Machine

variable {x : Transform} {s t : State}

/-! ### Completion, or the end of the frame (44_extract.md R246, R247) -/

theorem State.completeOrWait_complete (hv : s.hdrValid = true) (hd : s.bitsDone = s.bitsReq) :
    s.completeOrWait = { s with
      run := .done, resLen := BitVec.ofNat 32 ((s.bitsReq.toNat - headerBits s.build) / 8), resOff := 0, busy := false } :=
  if_pos ⟨hv, hd⟩

theorem State.completeOrWait_goesOn (hb : s.busy = true) (hn : ¬(s.hdrValid = true ∧ s.bitsDone = s.bitsReq)) :
    s.completeOrWait = { s with busy := s.iterValid } := by
  rw [State.completeOrWait, if_neg hn, hb, Bool.true_and]

theorem State.completeOrWait_header (s : State) : s.completeOrWait.hdrByte = s.hdrByte ∧ s.completeOrWait.bitsReq = s.bitsReq := by
  obtain ⟨-, -, e⟩ | ⟨-, e⟩ := s.completeOrWait_cases <;> rw [e] <;> exact ⟨rfl, rfl⟩

/-! ### A header with the right marker (44_extract.md R245) -/

section Accepted
variable (hd : s.bitsDone.toNat = headerBits s.build) (hmark : markerMatchBits s.build s.hdrByte = 8 * s.build.ml)
include hd hmark

theorem State.acceptHeader_bitsReq_toNat :
    s.acceptHeader.bitsReq.toNat = headerBits s.build + 8 * lengthField s.build s.hdrByte := by
  obtain ⟨-, hreq, -⟩ := (State.acceptHeader_accumInv hd hmark).valid rfl
  exact hreq

/-- At the end of the header, the stream is complete exactly when the declared length is 0. -/
theorem State.acceptHeader_complete_iff :
    s.acceptHeader.bitsDone = s.acceptHeader.bitsReq ↔ lengthField s.build s.hdrByte = 0 := by
  have hdone : s.acceptHeader.bitsDone.toNat = headerBits s.build := hd
  rw [← BitVec.toNat_inj, hdone, State.acceptHeader_bitsReq_toNat hd hmark]
  omega

theorem State.acceptHeader_empty (h0 : lengthField s.build s.hdrByte = 0) :
    s.acceptHeader.completeOrWait = { s.acceptHeader with run := .done, resLen := 0, resOff := 0, busy := false } := by
  have hlen : (s.acceptHeader.bitsReq.toNat - headerBits s.acceptHeader.build) / 8 = 0 := by
    change (_ - headerBits s.build) / 8 = 0
    rw [State.acceptHeader_bitsReq_toNat hd hmark]
    omega
  rw [State.completeOrWait_complete rfl ((State.acceptHeader_complete_iff hd hmark).2 h0), hlen]
  rfl

theorem State.acceptHeader_declared (hb : s.busy = true) (h0 : lengthField s.build s.hdrByte ≠ 0) :
    s.acceptHeader.completeOrWait = { s.acceptHeader with busy := s.iterValid } :=
  State.completeOrWait_goesOn hb fun h => h0 ((State.acceptHeader_complete_iff hd hmark).1 h.2)

end Accepted

/-! ### The step that completes the header (44_extract.md R244) -/

/-- `s` after the append of a bit, which leaves the accumulator of `u`, and Next (44_extract.md R243). -/
def State.withBit (s u : State) : State :=
  State.advance { s with hdr := u.hdr, pmem := u.pmem, byteSr := u.byteSr, bitsDone := s.bitsDone + 1 }

theorem State.appended_eq (s : State) (b : Bool) : (s.appendBit b).advance = s.withBit (s.appendBit b) :=
  congrArg State.advance (s.appendBit_frame b)

/-- `s` after the append of a header bit, which leaves the header bytes `hdr`. -/
def State.withHeaderBit (s : State) (hdr : Vector Byte 64) : State := s.withBit { s with hdr := hdr }

theorem State.appended_header (b : Bool) (hj : s.bitsDone.toNat < headerBits s.build) :
    ∃ hdr, (s.appendBit b).advance = s.withHeaderBit hdr := by
  rw [State.appendBit_header b hj]
  exact ⟨_, rfl⟩

theorem State.withHeaderBit_bitsDone (hdr : Vector Byte 64) (hd : s.bitsDone.toNat + 1 = headerBits s.build) :
    (s.withHeaderBit hdr).bitsDone.toNat = headerBits s.build := by
  have hle := headerBits_le s.build
  rw [← hd] at hle ⊢
  exact toNat_add_one_of_lt (m := 512) hle

theorem State.markerFailure_raised (s : State) (m : Nat) :
    (s.markerFailure m).setCmdErr .markerMismatch = { s with
      run := .failed, runErr := .markerMismatch, cmdErr := .markerMismatch, busy := false,
      errExp := BitVec.ofNat 64 (8 * s.build.ml), errObs := BitVec.ofNat 64 m } := by
  simp only [State.markerFailure, State.failRun, State.reportCounts, State.setCounts, State.setCmdErr]

/-- The marker in the header just completed decides between failure and acceptance. -/
theorem extractBlock_completesHeader (h : extractBlock x s = .next t) (hv : s.hdrValid = false)
    (hd : s.bitsDone.toNat + 1 = headerBits s.build) :
    ∃ hdr, t.hdrByte = (s.withHeaderBit hdr).hdrByte
      ∧ ((markerMatchBits s.build t.hdrByte < 8 * s.build.ml
          ∧ t = ((s.withHeaderBit hdr).markerFailure (markerMatchBits s.build (s.withHeaderBit hdr).hdrByte)).setCmdErr .markerMismatch)
        ∨ (markerMatchBits s.build t.hdrByte = 8 * s.build.ml ∧ t = (s.withHeaderBit hdr).acceptHeader.completeOrWait)) := by
  obtain ⟨-, -, h⟩ := extractBlock_next h
  obtain ⟨hdr, e⟩ := State.appended_header (extractedBit x s) (Nat.lt_of_succ_le hd.le)
  rw [e] at h
  refine ⟨hdr, ?_⟩
  obtain ⟨-, -, hm, rfl⟩ | ⟨-, -, hm, rfl⟩ | ⟨hn, -⟩ := State.checkHeader_next h
  · exact ⟨rfl, .inl ⟨hm, rfl⟩⟩
  · obtain ⟨hbytes, -⟩ := (s.withHeaderBit hdr).acceptHeader.completeOrWait_header
    exact ⟨hbytes, .inr ⟨(congrArg _ hbytes).trans hm, rfl⟩⟩
  · exact absurd ⟨hv, State.withHeaderBit_bitsDone hdr hd⟩ hn

/-- Settles O35: a byte that differs makes a bit that differs, so the check of the marker fails. -/
theorem markerMismatchEndsRun : Obligations.MarkerMismatchEndsRun := by
  intro x s t hb hm hv hd h hdiff
  rw [coreTurn_extract x hb hm] at h
  obtain ⟨hdr, -, ⟨-, rfl⟩ | ⟨hmark, -⟩⟩ := extractBlock_completesHeader h hv hd
  · rw [State.markerFailure_raised]
    rfl
  · exact absurd hmark (markerMatchBits_lt_iff.2 hdiff).ne

/-- Settles O36: the marker is right, so BITS_REQ is known, and it is reached at once exactly when the length is 0. -/
theorem headerSetsRequiredBits : Obligations.HeaderSetsRequiredBits := by
  intro x s t hb hm hv hd h hsame
  rw [coreTurn_extract x hb hm] at h
  obtain ⟨hdr, hbytes, ⟨hmark, -⟩ | ⟨hmark, e⟩⟩ := extractBlock_completesHeader h hv hd
  · exact absurd (markerMatchBits_eq_iff.2 hsame) hmark.ne
  have hdone := State.withHeaderBit_bitsDone hdr hd
  rw [hbytes] at hmark ⊢
  refine ⟨?bitsReq, fun h0 => ?empty, fun h0 => ?declared⟩
  case bitsReq =>
    obtain ⟨-, hreq⟩ := (s.withHeaderBit hdr).acceptHeader.completeOrWait_header
    rw [e, hreq, State.acceptHeader_bitsReq_toNat hdone hmark]
    rfl
  case empty => rw [e, State.acceptHeader_empty hdone hmark h0]; rfl
  case declared => rw [e, State.acceptHeader_declared hdone hmark hb h0]; rfl

/-! ### Every other step (44_extract.md R246, R247) -/

/-- A step that does not complete the header checks no marker: it appends its bit, and completes or goes on. -/
theorem extractBlock_checksNoMarker (h : extractBlock x s = .next t)
    (hn : ¬(s.hdrValid = false ∧ (s.bitsDone + 1).toNat = headerBits s.build)) : ∃ u, t = (s.withBit u).completeOrWait := by
  obtain ⟨-, -, h⟩ := extractBlock_next h
  rw [State.appended_eq] at h
  obtain ⟨hv, hd, -⟩ | ⟨hv, hd, -⟩ | ⟨-, rfl⟩ := State.checkHeader_next h
  · exact absurd ⟨hv, hd⟩ hn
  · exact absurd ⟨hv, hd⟩ hn
  · exact ⟨_, rfl⟩

/-- No count wraps to the end of the header: a count of all ones goes to 0. -/
theorem toNat_add_one_ne_headerBits {n : DWord} {b : Build} (hd : n.toNat + 1 ≠ headerBits b) : (n + 1).toNat ≠ headerBits b := by
  have hpos : 0 < headerBits b := by rw [headerBits_eq]; omega
  rw [BitVec.toNat_add, show (1 : DWord).toNat = 1 from rfl]
  have := n.isLt
  omega

/-- Settles O37: no marker is checked, so the step completes the run or goes on by whether BITS_REQ is known and reached. -/
theorem extractCompletion : Obligations.ExtractCompletion := by
  intro x s t hb hm h
  rw [coreTurn_extract x hb hm] at h
  refine ⟨fun hv hd => ?completes, fun hother => ?goesOn⟩
  case completes =>
    obtain ⟨u, rfl⟩ := extractBlock_checksNoMarker h fun hn => nomatch hv.symm.trans hn.1
    rw [State.completeOrWait_complete (s := s.withBit u) hv hd]
    rfl
  case goesOn =>
    obtain ⟨u, rfl⟩ := extractBlock_checksNoMarker h fun hn =>
      hother.elim (fun hvalid => nomatch hn.1.symm.trans hvalid.1) fun hheader => toNat_add_one_ne_headerBits hheader.2 hn.2
    rw [State.completeOrWait_goesOn (s := s.withBit u) hb fun hc =>
      hother.elim (fun hvalid => hvalid.2 hc.2) fun hheader => nomatch hheader.1.symm.trans hc.1]
    rfl

end Sys2Proof.Machine
end

section
/-! PROOFS. The accumulator of a completed extraction is a stream that ParseFn takes (44_extract.md R241, R249; 40_framing.md R137). -/

namespace Sys2Proof.Machine

theorem State.accumulated_header (s : State) {k : Nat} (hk : k < s.build.ml + 4) : s.accumulated k = s.hdrByte k := if_pos hk

theorem State.accumulated_payload (s : State) (i : Nat) : s.accumulated (s.build.ml + 4 + i) = s.pmemByte i := by
  rw [State.accumulated, if_neg (Nat.not_lt.2 (Nat.le_add_right _ _)), Nat.add_sub_cancel_left]

/-- Settles O38: a run that is DONE has a valid header, whose marker and length stand in the accumulator and account for every bit. -/
theorem finalParseSucceeds : Obligations.FinalParseSucceeds := by
  intro s hs hm hr
  refine ⟨?_, s.accumulated_payload⟩
  obtain ⟨hheader, hvalid⟩ := hs.extract hm
  have hv : s.hdrValid = true := by
    refine Bool.eq_true_of_not_eq_false fun hv => ?_
    obtain ⟨-, -, -, hndone⟩ := hheader hv
    exact hndone hr
  obtain ⟨hmark, hreq, -⟩ := hvalid hv
  rw [← lengthField_congr s.build (f := s.accumulated) fun k hk => s.accumulated_header hk] at hreq
  rw [← markerMatchBits_congr s.build (f := s.accumulated) fun k hk => s.accumulated_header (Nat.lt_add_right 4 hk)] at hmark
  have hlen : (s.bitsReq.toNat - headerBits s.build) / 8 = lengthField s.build s.accumulated := by omega
  have hbytes : s.bitsReq.toNat / 8 = s.build.ml + 4 + lengthField s.build s.accumulated := by
    rw [headerBits_eq] at hreq
    omega
  rw [hlen, hbytes]
  exact parseFn_payload (Nat.le_add_right _ _) hmark (Nat.add_sub_cancel_left ..).ge

end Sys2Proof.Machine
end

section
/-! PROOFS. The end of an extract frame (44_extract.md R242, R247, R250; 45_system.md R276; 70_reset_and_hazards.md R355): each turn of the
Core takes one block off those that are left, and reads one bit. -/

namespace Sys2Proof.Machine

variable {x : Transform} {s t : State} {n : Nat}

/-- A busy frame is at a block that it has (42_iterator.md R190, R193). -/
theorem State.AtBlock.lt_frameBlocks (hn : s.AtBlock n) (hs : s.FrameInv) (hb : s.busy = true) : n < s.frameBlocks := by
  obtain ⟨hv, -⟩ := hs hb
  exact hn.valid_iff.1 hv

theorem extractBlock_atBlock (h : extractBlock x s = .next t) (hn : s.AtBlock n) (hv : s.iterValid = true) : t.AtBlock (n + 1) := by
  obtain ⟨u, v, rfl⟩ := extractBlock_writes h
  exact hn.advance hv

/-- The accumulator of an active run is short of the header or of the declared stream, so BITS_DONE counts on (10_state.md R50). -/
theorem extractBlock_bitsDone (h : extractBlock x s = .next t) (hs : s.ExtractInv) (hm : s.mode = .extract) (hr : s.run = .active) :
    t.bitsDone.toNat = s.bitsDone.toNat + 1 := by
  obtain ⟨u, v, rfl⟩ := extractBlock_writes h
  obtain ⟨hheader, hvalid⟩ := hs hm
  cases hv : s.hdrValid with
  | false =>
    obtain ⟨-, -, hact, -⟩ := hheader hv
    exact toNat_add_one_of_lt (m := 512) ((hact hr).trans_le (headerBits_le _))
  | true =>
    obtain ⟨-, -, -, -, hact, -⟩ := hvalid hv
    exact toNat_add_one_of_lt (hact hr)

theorem State.completeOrWait_idle (hb : s.busy = true) (ht : s.completeOrWait.busy = false) (hr : s.completeOrWait.run = .active) :
    s.completeOrWait.iterValid = false := by
  obtain ⟨-, -, e⟩ | ⟨hn, -⟩ := s.completeOrWait_cases
  · rw [e] at hr
    cases hr
  · rw [State.completeOrWait_goesOn hb hn] at ht ⊢
    exact ht

/-- In a run that goes on, only the end of the frame clears BUSY. -/
theorem extractBlock_idle (h : extractBlock x s = .next t) (hb : s.busy = true) (ht : t.busy = false) (hr : t.run = .active) :
    t.iterValid = false := by
  obtain ⟨-, -, h⟩ := extractBlock_next h
  rw [State.appended_eq] at h
  obtain ⟨-, -, -, rfl⟩ | ⟨-, -, -, rfl⟩ | ⟨-, rfl⟩ := State.checkHeader_next h
  · cases hr
  · exact State.completeOrWait_idle hb ht hr
  · exact State.completeOrWait_idle hb ht hr

/-- An extract run in a frame with `n` blocks to go: a busy one is at the first of these, and an idle one has none left or has ended. -/
structure State.ExtractBlocksLeft (s : State) (n : Nat) : Prop where
  inv : s.RunInv
  mode : s.mode = .extract
  position : s.busy = true → ∃ i, s.AtBlock i ∧ i + n = s.frameBlocks
  ended : s.busy = false → s.run = .active → n = 0

theorem State.ExtractBlocksLeft.idle (hs : s.ExtractBlocksLeft 0) : s.busy = false := by
  refine Bool.eq_false_of_not_eq_true fun hb => ?_
  obtain ⟨i, hi, hlast⟩ := hs.position hb
  exact (hi.lt_frameBlocks hs.inv.frame hb).ne hlast

/-- A turn of the Core reads one bit, in one block. -/
theorem State.ExtractBlocksLeft.turn (x : Transform) (hs : s.ExtractBlocksLeft (n + 1)) (hb : s.busy = true) :
    ∃ t, coreTurn x s = .next t ∧ t.ExtractBlocksLeft n ∧ t.bitsDone.toNat = s.bitsDone.toNat + 1 := by
  obtain ⟨i, hi, hleft⟩ := hs.position hb
  obtain ⟨t, ht⟩ := extractBlock_answers x (hs.inv.blockInFmem hb) (hs.inv.extract_payloadAddr hb hs.mode)
  obtain ⟨-, hmode, -, -, -, -, hlw, hlh, -⟩ := extractBlock_frame ht
  have hblocks : t.frameBlocks = s.frameBlocks := by rw [State.frameBlocks, State.frameBlocks, hlw, hlh]
  have hnext := extractBlock_atBlock ht hi (hs.inv.frame hb).1
  refine ⟨t, (coreTurn_extract x hb hs.mode).trans ht,
    ⟨extractBlock_runInv hs.inv hb hs.mode ht, hmode.trans hs.mode, fun _ => ⟨i + 1, hnext, by omega⟩, fun hidle hr => ?_⟩,
    extractBlock_bitsDone ht hs.inv.extract hs.mode (hs.inv.status.busyActive hb)⟩
  have hlast : ¬i + 1 < t.frameBlocks := mt hnext.valid_iff.2 (Bool.eq_false_iff.1 (extractBlock_idle ht hb hidle hr))
  omega

/-- The Core alone ends the frame, having read a bit in each block unless the run ended first. -/
theorem State.ExtractBlocksLeft.ends (x : Transform) (hs : s.ExtractBlocksLeft n) :
    ∃ k u, k ≤ n ∧ coreTurns x k s = .next u ∧ u.busy = false ∧ u.bitsDone.toNat = s.bitsDone.toNat + k
      ∧ (u.run = .active → k = n) := by
  induction n generalizing s with
  | zero => exact ⟨0, s, le_rfl, rfl, hs.idle, rfl, fun _ => rfl⟩
  | succ n ih =>
    cases hb : s.busy with
    | false => exact ⟨0, s, Nat.zero_le _, rfl, hb, rfl, fun hr => (hs.ended hb hr).symm⟩
    | true =>
      obtain ⟨t, ht, hleft, hdone⟩ := hs.turn x hb
      obtain ⟨k, u, hk, hrun, hu, hbits, hall⟩ := ih hleft
      refine ⟨k + 1, u, Nat.succ_le_succ hk, (coreTurns_succ k ht).trans hrun, hu, ?_, fun hr => congrArg Nat.succ (hall hr)⟩
      rw [hbits, hdone, Nat.succ_add_eq_add_succ]

/-- An accepted extract frame has all its blocks to go. -/
theorem extractBlocksLeft_of_extFrame (hs : s.RunInv) (hb : s.busy = false) (hm : s.mode = .extract) (hr : s.run = .active) :
    (s.countFrame.beginFrame.setCmdErr .ok).ExtractBlocksLeft s.frameBlocks := by
  have hfirst : s.countFrame.beginFrame.AtBlock 0 := s.countFrame.beginFrame_atBlock
  have heffect : CommandEffect s .extFrame (s.countFrame.beginFrame.setCmdErr .ok) := .frame hr fun he => nomatch hm.symm.trans he
  refine ⟨heffect.runInv hs hb, hm, fun _ => ⟨0, hfirst, Nat.zero_add _⟩, fun hidle _ => ?_⟩
  exact Nat.eq_zero_of_not_pos (mt hfirst.valid_iff.2 (Bool.eq_false_iff.1 hidle))

/-- Settles O39, by induction on the blocks left. -/
theorem extractFrameEnds : Obligations.ExtractFrameEnds := by
  intro x s t hs hb hm hr h
  obtain rfl := Host.Outcome.next.inj ((exec_extFrame_begins hb hm hr).symm.trans h)
  exact (extractBlocksLeft_of_extFrame hs.runInv hb hm hr).ends x

end Sys2Proof.Machine
end

section
/-! PROOFS. What a write to CMD does while BUSY = 1, and what NOP and ABORT do when BUSY = 0 (45_system.md R270, R271, R274). -/

namespace Sys2Proof.Machine

variable {s : State}

theorem illegalCommand_busy (hb : s.busy = true) : illegalCommand s = .next s.setOverrun :=
  whenReady_busy hb _

theorem exec_nop_idle (hb : s.busy = false) : exec .nop s = .next (s.setCmdErr .ok) := by
  rw [exec_nop, execNop, whenReady_idle hb, succeed_eq]

theorem exec_abort_idle (hb : s.busy = false) : exec .abort s = .next (s.endRun.setCmdErr .ok) := by
  rw [exec_abort, execAbort, whenReady_idle hb, succeed_eq]

/-- Settles O6: a legal word is dropped by its command's check of BUSY, and an illegal one by the same check. -/
theorem busyDropsCommand : Obligations.BusyDropsCommand := by
  intro w s hb
  obtain ⟨i, -, hlegal⟩ | ⟨-, -, hillegal⟩ := cmdWrite_cases w s
  · rw [hlegal, exec_busy i hb, State.setOverrun]
  · rw [hillegal, illegalCommand_busy hb, State.setOverrun]

/-- Settles O9: both commands pass the check of BUSY; NOP writes its code alone, and ABORT ends the run first. -/
theorem controlEffects : Obligations.ControlEffects := by
  intro s hb
  refine ⟨?nop, ?abort⟩
  case nop => rw [exec_nop_idle hb, State.setCmdErr]
  case abort => rw [exec_abort_idle hb, State.setCmdErr, State.endRun]

end Sys2Proof.Machine
end

section
/-! PROOFS. SER_BIT below and past the end of the stream, and EMB_END of an embed run, while BUSY = 0 (40_framing.md R135; 43_embed.md R216;
60_exceptions.md R311, R312). -/

namespace Sys2Proof.Machine

variable {s : State}

/-! ### SER_BIT (40_framing.md R135; 60_exceptions.md R311) -/

theorem exec_serBit_inStream (hb : s.busy = false) (hi : s.idx.toNat < streamBits s.build s.payLen.toNat) :
    exec .serBit s = .next { s with bitOut := streamBit s.build s.pmemByte s.payLen.toNat s.idx.toNat, cmdErr := .ok } := by
  rw [exec_serBit, execSerBit, whenReady_idle hb]
  exact if_neg hi.not_ge

theorem exec_serBit_pastStream (hb : s.busy = false) (hi : streamBits s.build s.payLen.toNat ≤ s.idx.toNat) :
    exec .serBit s = .next ((s.reportCounts (streamBits s.build s.payLen.toNat) s.idx.toNat).setCmdErr .indexRange) := by
  rw [exec_serBit, execSerBit, whenReady_idle hb]
  exact if_pos hi

/-- A count that is a 64-bit register's value is reported as it stands (60_exceptions.md R306). -/
theorem State.reportCounts_register (s : State) (e : Nat) (o : DWord) :
    s.reportCounts e o.toNat = s.setCounts (BitVec.ofNat 64 e) o := by
  rw [State.reportCounts, BitVec.ofNat_toNat, BitVec.setWidth_eq]

/-- Settles O21: IDX is below the length of the stream, or it is reported with that length. -/
theorem serBitEffect : Obligations.SerBitEffect := by
  intro s hb
  refine ⟨exec_serBit_inStream hb, fun hi => ?past⟩
  case past =>
    rw [exec_serBit_pastStream hb hi, State.reportCounts_register]
    rfl

/-! ### EMB_END (43_embed.md R216; 60_exceptions.md R312) -/

/-- An active run short of its bits ends with the warning and its counts. -/
theorem exec_embEnd_partial (hb : s.busy = false) (hm : s.mode = .embed) (hr : s.run = .active)
    (hd : s.bitsDone.toNat < s.bitsReq.toNat) :
    exec .embEnd s = .next { s with
      partialEmb := true, errExp := s.bitsReq, errObs := s.bitsDone, run := .done, cmdErr := .ok } := by
  rw [exec_embEnd, execEmbEnd, whenReady_idle hb, if_pos hm, if_pos hr, if_pos hd]
  rfl

theorem exec_embEnd_complete (hb : s.busy = false) (hm : s.mode = .embed) (hr : s.run = .active)
    (hd : s.bitsReq.toNat ≤ s.bitsDone.toNat) : exec .embEnd s = .next { s with run := .done, cmdErr := .ok } := by
  rw [exec_embEnd, execEmbEnd, whenReady_idle hb, if_pos hm, if_pos hr, if_neg hd.not_gt]
  rfl

theorem exec_embEnd_ended (hb : s.busy = false) (hm : s.mode = .embed) (hr : s.run ≠ .active) :
    exec .embEnd s = .next (s.setCmdErr .ok) := by
  rw [exec_embEnd, execEmbEnd, whenReady_idle hb, if_pos hm, if_neg hr, succeed_eq]

/-- Settles O27: the run is short of its bits, or has them, or ended before. -/
theorem embEndEffect : Obligations.EmbEndEffect := fun _ hb hm =>
  ⟨exec_embEnd_partial hb hm, exec_embEnd_complete hb hm, exec_embEnd_ended hb hm⟩

end Sys2Proof.Machine
end

section
/-! PROOFS. The table of run states (60_exceptions.md R308): outside it a command reports SEQUENCE and does nothing else, and inside it no
command takes that code. -/

namespace Sys2Proof.Machine

variable {s t : State} {i : Instr}

theorem sequenceAllows_embFrame : sequenceAllows .embFrame s = true ↔ s.mode = .embed ∧ s.run = .active := by
  simp [sequenceAllows]

theorem sequenceAllows_extFrame : sequenceAllows .extFrame s = true ↔ s.mode = .extract ∧ s.run = .active := by
  simp [sequenceAllows]

/-! ### Outside the table -/

theorem whenNoActiveRun_active (hr : s.run = .active) (body : State → Host.Outcome State Fault Refusal) :
    whenNoActiveRun s body = .next (s.setCmdErr .sequence) := if_pos hr

/-- The standalone iterator, a frame command and an END check the table before anything else; the other commands are always in it. -/
theorem exec_outsideTable (hb : s.busy = false) (h : sequenceAllows i s = false) : exec i s = .next (s.setCmdErr .sequence) := by
  cases i with
  | nop | qenc | qdec | serBit | parse | embStart | extStart | abort => exact nomatch h
  | iterReset => rw [exec_iterReset, execIterReset, whenReady_idle hb, whenNoActiveRun_active (bne_eq_false_iff_eq.1 h)]
  | iterNext => rw [exec_iterNext, execIterNext, whenReady_idle hb, whenNoActiveRun_active (bne_eq_false_iff_eq.1 h)]
  | embFrame =>
    have hout := mt sequenceAllows_embFrame.2 (Bool.eq_false_iff.1 h)
    rw [exec_embFrame, execEmbFrame, whenReady_idle hb, if_neg hout, raise_eq]
  | extFrame =>
    have hout := mt sequenceAllows_extFrame.2 (Bool.eq_false_iff.1 h)
    rw [exec_extFrame, execExtFrame, whenReady_idle hb, if_neg hout, raise_eq]
  | embEnd => rw [exec_embEnd, execEmbEnd, whenReady_idle hb, if_neg (beq_eq_false_iff_ne.1 h), raise_eq]
  | extEnd => rw [exec_extEnd, execExtEnd, whenReady_idle hb, if_neg (beq_eq_false_iff_ne.1 h), raise_eq]

/-! ### Inside the table -/

/-- If there is a next state, its CMD_ERR is not SEQUENCE. -/
def NeverSequence (o : Host.Outcome State Fault Refusal) : Prop := ∀ t, o = .next t → t.cmdErr ≠ .sequence

theorem NeverSequence.of_next {o : Host.Outcome State Fault Refusal} (h : o = .next t) (hc : t.cmdErr ≠ .sequence) : NeverSequence o :=
  fun _ h' => Host.Outcome.next.inj (h.symm.trans h') ▸ hc

/-- A command that checks Q can fail with BAD_CONFIG alone (60_exceptions.md R309). -/
theorem neverSequence_checksStep (hi : i = .qenc false ∨ i = .qenc true ∨ i = .qdec ∨ i = .embStart ∨ i = .extStart)
    (hb : s.busy = false) : NeverSequence (exec i s) := by
  obtain ⟨body, hexec⟩ := exec_checksStep hi
  rw [hexec, whenReady_idle hb]
  split
  · exact .of_next rfl nofun
  · exact .of_next rfl nofun

theorem State.neverSequence_applyParse (s : State) (r : ParseResult) : NeverSequence (s.applyParse r) := by
  cases r with
  | incompleteHeader | markerMismatch | truncatedPayload => exact .of_next rfl nofun
  | payload => exact .of_next rfl nofun

theorem neverSequence_serBit (hb : s.busy = false) : NeverSequence (exec .serBit s) := by
  rcases Nat.lt_or_ge s.idx.toNat (streamBits s.build s.payLen.toNat) with hi | hi
  · exact .of_next (exec_serBit_inStream hb hi) nofun
  · exact .of_next (exec_serBit_pastStream hb hi) nofun

theorem neverSequence_iterNext (hb : s.busy = false) (hr : s.run ≠ .active) : NeverSequence (exec .iterNext s) := by
  cases hv : s.iterValid with
  | false => exact .of_next (exec_iterNext_invalid hb hr hv) nofun
  | true => exact .of_next (exec_iterNext_valid hb hr hv) nofun

theorem neverSequence_embFrame (hb : s.busy = false) (hm : s.mode = .embed) (hr : s.run = .active) :
    NeverSequence (exec .embFrame s) := by
  cases he : s.exhausted with
  | false => exact .of_next (exec_embFrame_begins hb hm hr he) nofun
  | true => exact .of_next (exec_embFrame_exhausted hb hm hr he) nofun

theorem neverSequence_embEnd (hb : s.busy = false) (hm : s.mode = .embed) : NeverSequence (exec .embEnd s) := by
  by_cases hr : s.run = .active
  · rcases Nat.lt_or_ge s.bitsDone.toNat s.bitsReq.toNat with hd | hd
    · exact .of_next (exec_embEnd_partial hb hm hr hd) nofun
    · exact .of_next (exec_embEnd_complete hb hm hr hd) nofun
  · exact .of_next (exec_embEnd_ended hb hm hr) nofun

theorem neverSequence_extEnd (hb : s.busy = false) (hm : s.mode = .extract) : NeverSequence (exec .extEnd s) := by
  by_cases hr : s.run = .active
  · exact .of_next (exec_extEnd_active hb hm hr) nofun
  · exact .of_next (exec_extEnd_ended hb hm hr) nofun

theorem exec_insideTable (hb : s.busy = false) (h : sequenceAllows i s = true) : NeverSequence (exec i s) := by
  cases i with
  | nop => exact .of_next (exec_nop_idle hb) nofun
  | abort => exact .of_next (exec_abort_idle hb) nofun
  | qenc b => exact neverSequence_checksStep (by cases b <;> simp) hb
  | qdec | embStart | extStart => exact neverSequence_checksStep (by simp) hb
  | serBit => exact neverSequence_serBit hb
  | parse => exact exec_parse_idle hb ▸ s.neverSequence_applyParse _
  | iterReset => exact .of_next (exec_iterReset_free hb (bne_iff_ne.1 h)) nofun
  | iterNext => exact neverSequence_iterNext hb (bne_iff_ne.1 h)
  | embFrame =>
    obtain ⟨hm, hr⟩ := sequenceAllows_embFrame.1 h
    exact neverSequence_embFrame hb hm hr
  | embEnd => exact neverSequence_embEnd hb (beq_iff_eq.1 h)
  | extFrame =>
    obtain ⟨hm, hr⟩ := sequenceAllows_extFrame.1 h
    exact .of_next (exec_extFrame_begins hb hm hr) nofun
  | extEnd => exact neverSequence_extEnd hb (beq_iff_eq.1 h)

/-- Settles O7: each side of the table, command by command. -/
theorem sequenceTable : Obligations.SequenceTable := fun _ _ hb =>
  ⟨exec_outsideTable hb, exec_insideTable hb⟩

end Sys2Proof.Machine
end

section
/-! PROOFS. A Reset with BUSY = 1 (70_reset_and_hazards.md R342): which byte of each memory it may draw. -/

namespace Sys2Proof.Machine

variable {s t : State}

theorem State.drawByte_other (s : State) {a : Nat} (h : a ≠ payloadAddr s.build s.bitsDone.toNat) :
    s.drawByte.pmemByte a = s.pmemByte a :=
  (State.pmemByte_congr (State.setDraws_pmem _ _) a).trans (State.pmemByte_setPmem_other s _ h)

/-- Only an embed run's block step has FMEM bytes under write-back. -/
theorem resetEvent_fmemByte (h : resetEvent s = .next t) {a : Nat}
    (ha : s.mode = .embed → ∀ i j, a ≠ sampleAddr s.lw s.iterRow s.iterCol i j) : t.fmemByte a = s.fmemByte a := by
  rcases resetEvent_next h with ⟨-, hm, -, rfl⟩ | ⟨-, -, -, -, rfl⟩ | ⟨-, -, rfl⟩
  · exact s.drawBlock_other (ha hm)
  · exact State.fmemByte_congr rfl a
  · exact State.fmemByte_congr rfl a

/-- Only an extract run past the header has a PMEM byte under assembly. -/
theorem resetEvent_pmemByte (h : resetEvent s = .next t) {a : Nat}
    (ha : s.mode = .extract → headerBits s.build ≤ s.bitsDone.toNat → a ≠ payloadAddr s.build s.bitsDone.toNat) :
    t.pmemByte a = s.pmemByte a := by
  rcases resetEvent_next h with ⟨-, -, -, rfl⟩ | ⟨-, hm, hd, -, rfl⟩ | ⟨-, -, rfl⟩
  · exact State.pmemByte_congr rfl a
  · exact s.drawByte_other (ha hm hd)
  · exact State.pmemByte_congr rfl a

/-- Settles O52: the registers are those of power-on, and each memory keeps the bytes outside what its kind of run draws. -/
theorem resetInFlight : Obligations.ResetInFlight := fun _ _ _ h =>
  have hpower := powerOn_sameRun_of_resetEvent h
  ⟨hpower.busy, hpower.mode, hpower.run, fun _ => resetEvent_fmemByte h, fun _ => resetEvent_pmemByte h⟩

end Sys2Proof.Machine
end
